-- ==== Sys2Proof/Word.lean ====
section
/-! DEFINITION. The word types of the block (00_scope.md R4, R8): u8, u16 and u64, all unsigned. -/

namespace Sys2Proof

/-- A u8: a general register, F, a memory byte or an opcode (00_scope.md R4). -/
abbrev Byte := BitVec 8

/-- A u16: PC, SP, an address or an LXI immediate (00_scope.md R4). -/
abbrev Word16 := BitVec 16

/-- A u64: the cycle counter CYC (00_scope.md R4). -/
abbrev Count := BitVec 64

end Sys2Proof
end

