-- ==== Sys2Proof/Syntax.lean ====
section
/-! DEFINITION. The instructions of the block: one constructor of `Instr` for each row of
spec/opcode_table.json, and the operand names the spec gives (10_state.md R22, R25;
30_encoding.md R92; 40_dispatch.md R101). -/

namespace Sys2Proof

/-- The seven general registers (10_state.md R21). -/
inductive Reg where
  | a | b | c | d | e | h | l
  deriving DecidableEq, Repr

/-- A MOV operand: a register, or M, the memory byte at HL (10_state.md R22). -/
inductive Operand where
  | reg (r : Reg)
  | m
  deriving DecidableEq, Repr

/-- The target of an LXI (10_state.md R25): a register pair, or SP. -/
inductive Rp where
  | bc | de | hl | sp
  deriving DecidableEq, Repr

/-- The family select of a transaction: the entry point it came through (40_dispatch.md R101). -/
inductive Sel where
  | mov | lxi | any
  deriving DecidableEq, Repr

/-- The decoder's verdict (30_encoding.md R92), with `MOV(dst, src)` split into the three operand
forms of 41_mov.md R121, R122 and R123, so that a MOV of M to M cannot be written (R90). -/
inductive Decoded where
  | movRegReg (dst src : Reg)
  | movRegMem (dst : Reg)
  | movMemReg (src : Reg)
  | lxi (rp : Rp)
  | invalid
  deriving DecidableEq, Repr

/-- The instructions: one constructor per row of spec/opcode_table.json. An LXI carries no
immediate: its handler reads the two operand bytes from memory at PC (42_lxi.md R200). -/
inductive Instr where
  /-- MOV B,B, opcode 0x40 (41_mov.md R130). -/
  | movBB
  /-- MOV B,C, opcode 0x41 (41_mov.md R131). -/
  | movBC
  /-- MOV B,D, opcode 0x42 (41_mov.md R132). -/
  | movBD
  /-- MOV B,E, opcode 0x43 (41_mov.md R133). -/
  | movBE
  /-- MOV B,H, opcode 0x44 (41_mov.md R134). -/
  | movBH
  /-- MOV B,L, opcode 0x45 (41_mov.md R135). -/
  | movBL
  /-- MOV B,M, opcode 0x46 (41_mov.md R136). -/
  | movBM
  /-- MOV B,A, opcode 0x47 (41_mov.md R137). -/
  | movBA
  /-- MOV C,B, opcode 0x48 (41_mov.md R138). -/
  | movCB
  /-- MOV C,C, opcode 0x49 (41_mov.md R139). -/
  | movCC
  /-- MOV C,D, opcode 0x4A (41_mov.md R140). -/
  | movCD
  /-- MOV C,E, opcode 0x4B (41_mov.md R141). -/
  | movCE
  /-- MOV C,H, opcode 0x4C (41_mov.md R142). -/
  | movCH
  /-- MOV C,L, opcode 0x4D (41_mov.md R143). -/
  | movCL
  /-- MOV C,M, opcode 0x4E (41_mov.md R144). -/
  | movCM
  /-- MOV C,A, opcode 0x4F (41_mov.md R145). -/
  | movCA
  /-- MOV D,B, opcode 0x50 (41_mov.md R146). -/
  | movDB
  /-- MOV D,C, opcode 0x51 (41_mov.md R147). -/
  | movDC
  /-- MOV D,D, opcode 0x52 (41_mov.md R148). -/
  | movDD
  /-- MOV D,E, opcode 0x53 (41_mov.md R149). -/
  | movDE
  /-- MOV D,H, opcode 0x54 (41_mov.md R150). -/
  | movDH
  /-- MOV D,L, opcode 0x55 (41_mov.md R151). -/
  | movDL
  /-- MOV D,M, opcode 0x56 (41_mov.md R152). -/
  | movDM
  /-- MOV D,A, opcode 0x57 (41_mov.md R153). -/
  | movDA
  /-- MOV E,B, opcode 0x58 (41_mov.md R154). -/
  | movEB
  /-- MOV E,C, opcode 0x59 (41_mov.md R155). -/
  | movEC
  /-- MOV E,D, opcode 0x5A (41_mov.md R156). -/
  | movED
  /-- MOV E,E, opcode 0x5B (41_mov.md R157). -/
  | movEE
  /-- MOV E,H, opcode 0x5C (41_mov.md R158). -/
  | movEH
  /-- MOV E,L, opcode 0x5D (41_mov.md R159). -/
  | movEL
  /-- MOV E,M, opcode 0x5E (41_mov.md R160). -/
  | movEM
  /-- MOV E,A, opcode 0x5F (41_mov.md R161). -/
  | movEA
  /-- MOV H,B, opcode 0x60 (41_mov.md R162). -/
  | movHB
  /-- MOV H,C, opcode 0x61 (41_mov.md R163). -/
  | movHC
  /-- MOV H,D, opcode 0x62 (41_mov.md R164). -/
  | movHD
  /-- MOV H,E, opcode 0x63 (41_mov.md R165). -/
  | movHE
  /-- MOV H,H, opcode 0x64 (41_mov.md R166). -/
  | movHH
  /-- MOV H,L, opcode 0x65 (41_mov.md R167). -/
  | movHL
  /-- MOV H,M, opcode 0x66 (41_mov.md R168). -/
  | movHM
  /-- MOV H,A, opcode 0x67 (41_mov.md R169). -/
  | movHA
  /-- MOV L,B, opcode 0x68 (41_mov.md R170). -/
  | movLB
  /-- MOV L,C, opcode 0x69 (41_mov.md R171). -/
  | movLC
  /-- MOV L,D, opcode 0x6A (41_mov.md R172). -/
  | movLD
  /-- MOV L,E, opcode 0x6B (41_mov.md R173). -/
  | movLE
  /-- MOV L,H, opcode 0x6C (41_mov.md R174). -/
  | movLH
  /-- MOV L,L, opcode 0x6D (41_mov.md R175). -/
  | movLL
  /-- MOV L,M, opcode 0x6E (41_mov.md R176). -/
  | movLM
  /-- MOV L,A, opcode 0x6F (41_mov.md R177). -/
  | movLA
  /-- MOV M,B, opcode 0x70 (41_mov.md R178). -/
  | movMB
  /-- MOV M,C, opcode 0x71 (41_mov.md R179). -/
  | movMC
  /-- MOV M,D, opcode 0x72 (41_mov.md R180). -/
  | movMD
  /-- MOV M,E, opcode 0x73 (41_mov.md R181). -/
  | movME
  /-- MOV M,H, opcode 0x74 (41_mov.md R182). -/
  | movMH
  /-- MOV M,L, opcode 0x75 (41_mov.md R183). -/
  | movML
  /-- Opcode 0x76, reserved: not MOV M,M (30_encoding.md R90). -/
  | reservedMovMM
  /-- MOV M,A, opcode 0x77 (41_mov.md R184). -/
  | movMA
  /-- MOV A,B, opcode 0x78 (41_mov.md R185). -/
  | movAB
  /-- MOV A,C, opcode 0x79 (41_mov.md R186). -/
  | movAC
  /-- MOV A,D, opcode 0x7A (41_mov.md R187). -/
  | movAD
  /-- MOV A,E, opcode 0x7B (41_mov.md R188). -/
  | movAE
  /-- MOV A,H, opcode 0x7C (41_mov.md R189). -/
  | movAH
  /-- MOV A,L, opcode 0x7D (41_mov.md R190). -/
  | movAL
  /-- MOV A,M, opcode 0x7E (41_mov.md R191). -/
  | movAM
  /-- MOV A,A, opcode 0x7F (41_mov.md R192). -/
  | movAA
  /-- LXI B,d16, opcode 0x01 (42_lxi.md R201). -/
  | lxiB
  /-- LXI D,d16, opcode 0x11 (42_lxi.md R202). -/
  | lxiD
  /-- LXI H,d16, opcode 0x21 (42_lxi.md R203). -/
  | lxiH
  /-- LXI SP,d16, opcode 0x31 (42_lxi.md R204). -/
  | lxiSP
  /-- One of the other 188 INVALID opcode values, `op` (30_encoding.md R91). -/
  | invalid (op : Byte)
  deriving DecidableEq, Repr

/-- An instruction with the operand bytes that follow its opcode in memory: `imm` is the 16-bit
immediate of an LXI and absent for every other instruction (30_encoding.md R81, R87, R88). -/
structure FullInstr where
  instr : Instr
  imm : Option Word16
  deriving DecidableEq, Repr

end Sys2Proof
end

