-- ==== Sys2Proof/WellFormed.lean ====
section
/-! DEFINITION. Which instruction terms stand for words of the opcode map (30_encoding.md R84, R85, R90, R91). -/

namespace Sys2Proof

/-- The opcode lies outside the ranges of 30_encoding.md R84 and R85: one of the 189 INVALID values (R91). -/
def isInvalidOpcode (op : Byte) : Bool :=
  !((0x40#8 ≤ op && op ≤ 0x7F#8 && op != 0x76#8) ||
    op == 0x01#8 || op == 0x11#8 || op == 0x21#8 || op == 0x31#8)

/-- Is the instruction an LXI, and so followed by two operand bytes (30_encoding.md R89)? -/
def Instr.isLxi : Instr → Bool
  | .lxiB | .lxiD | .lxiH | .lxiSP => true
  | .movBB | .movBC | .movBD | .movBE | .movBH | .movBL | .movBM | .movBA | .movCB | .movCC
  | .movCD | .movCE | .movCH | .movCL | .movCM | .movCA | .movDB | .movDC | .movDD | .movDE
  | .movDH | .movDL | .movDM | .movDA | .movEB | .movEC | .movED | .movEE | .movEH | .movEL
  | .movEM | .movEA | .movHB | .movHC | .movHD | .movHE | .movHH | .movHL | .movHM | .movHA
  | .movLB | .movLC | .movLD | .movLE | .movLH | .movLL | .movLM | .movLA | .movMB | .movMC
  | .movMD | .movME | .movMH | .movML | .movMA | .movAB | .movAC | .movAD | .movAE | .movAH
  | .movAL | .movAM | .movAA | .reservedMovMM
  | .invalid _ => false

/-- `invalid op` stands only for the 188 INVALID opcodes other than 0x76, which has its own row. -/
def Instr.wf : Instr → Bool
  | .invalid op => isInvalidOpcode op && op != 0x76#8
  | .movBB | .movBC | .movBD | .movBE | .movBH | .movBL | .movBM | .movBA | .movCB | .movCC
  | .movCD | .movCE | .movCH | .movCL | .movCM | .movCA | .movDB | .movDC | .movDD | .movDE
  | .movDH | .movDL | .movDM | .movDA | .movEB | .movEC | .movED | .movEE | .movEH | .movEL
  | .movEM | .movEA | .movHB | .movHC | .movHD | .movHE | .movHH | .movHL | .movHM | .movHA
  | .movLB | .movLC | .movLD | .movLE | .movLH | .movLL | .movLM | .movLA | .movMB | .movMC
  | .movMD | .movME | .movMH | .movML | .movMA | .movAB | .movAC | .movAD | .movAE | .movAH
  | .movAL | .movAM | .movAA | .reservedMovMM | .lxiB | .lxiD | .lxiH | .lxiSP => true

/-- A full instruction is well formed when its opcode part is, and it has an immediate exactly
when it is an LXI (30_encoding.md R87, R88). -/
def FullInstr.wf (f : FullInstr) : Bool :=
  f.instr.wf && f.imm.isSome == f.instr.isLxi

end Sys2Proof
end

