-- ==== Sys2Proof/Decode.lean ====
section
/-! DEFINITION. The opcode decoder (30_encoding.md R92), and after it the encoder, written from the
opcode map (R86) and the LXI byte layout (R81). -/

namespace Sys2Proof

/-- The operand a 3-bit MOV code names (10_state.md R22, 30_encoding.md R82). -/
def operandOfCode (code : BitVec 3) : Operand :=
  match code.toNat with
  | 0 => .reg .b
  | 1 => .reg .c
  | 2 => .reg .d
  | 3 => .reg .e
  | 4 => .reg .h
  | 5 => .reg .l
  | 6 => .m
  | _ => .reg .a

/-- The target a 2-bit LXI code names (10_state.md R25, 30_encoding.md R83). -/
def rpOfCode (code : BitVec 2) : Rp :=
  match code.toNat with
  | 0 => .bc
  | 1 => .de
  | 2 => .hl
  | _ => .sp

/-- The operand form of a MOV; M to M is no MOV (30_encoding.md R90). -/
def movForm : Operand → Operand → Decoded
  | .reg dst, .reg src => .movRegReg dst src
  | .reg dst, .m => .movRegMem dst
  | .m, .reg src => .movMemReg src
  | .m, .m => .invalid

/-- `op[5:3]` (30_encoding.md R81). -/
def dstField (op : Byte) : BitVec 3 := op.extractLsb' 3 3

/-- `op[2:0]` (30_encoding.md R81). -/
def srcField (op : Byte) : BitVec 3 := op.extractLsb' 0 3

/-- `op[5:4]` (30_encoding.md R81). -/
def rpField (op : Byte) : BitVec 2 := op.extractLsb' 4 2

/-- `decode(op)` of 30_encoding.md R92: a total function of the opcode byte alone. -/
def decodeFields (op : Byte) : Decoded :=
  if op.extractLsb' 6 2 = 0b01#2 ∧ op ≠ 0x76#8 then
    movForm (operandOfCode (dstField op)) (operandOfCode (srcField op))
  else if op.extractLsb' 6 2 = 0b00#2 ∧ op.extractLsb' 0 4 = 0b0001#4 then
    .lxi (rpOfCode (rpField op))
  else .invalid

/-- The row of the opcode table for MOV r1,r2. -/
def movRegRegInstr : Reg → Reg → Instr
  | .b, .b => .movBB
  | .b, .c => .movBC
  | .b, .d => .movBD
  | .b, .e => .movBE
  | .b, .h => .movBH
  | .b, .l => .movBL
  | .b, .a => .movBA
  | .c, .b => .movCB
  | .c, .c => .movCC
  | .c, .d => .movCD
  | .c, .e => .movCE
  | .c, .h => .movCH
  | .c, .l => .movCL
  | .c, .a => .movCA
  | .d, .b => .movDB
  | .d, .c => .movDC
  | .d, .d => .movDD
  | .d, .e => .movDE
  | .d, .h => .movDH
  | .d, .l => .movDL
  | .d, .a => .movDA
  | .e, .b => .movEB
  | .e, .c => .movEC
  | .e, .d => .movED
  | .e, .e => .movEE
  | .e, .h => .movEH
  | .e, .l => .movEL
  | .e, .a => .movEA
  | .h, .b => .movHB
  | .h, .c => .movHC
  | .h, .d => .movHD
  | .h, .e => .movHE
  | .h, .h => .movHH
  | .h, .l => .movHL
  | .h, .a => .movHA
  | .l, .b => .movLB
  | .l, .c => .movLC
  | .l, .d => .movLD
  | .l, .e => .movLE
  | .l, .h => .movLH
  | .l, .l => .movLL
  | .l, .a => .movLA
  | .a, .b => .movAB
  | .a, .c => .movAC
  | .a, .d => .movAD
  | .a, .e => .movAE
  | .a, .h => .movAH
  | .a, .l => .movAL
  | .a, .a => .movAA

/-- The row of the opcode table for MOV r,M. -/
def movRegMemInstr : Reg → Instr
  | .b => .movBM
  | .c => .movCM
  | .d => .movDM
  | .e => .movEM
  | .h => .movHM
  | .l => .movLM
  | .a => .movAM

/-- The row of the opcode table for MOV M,r. -/
def movMemRegInstr : Reg → Instr
  | .b => .movMB
  | .c => .movMC
  | .d => .movMD
  | .e => .movME
  | .h => .movMH
  | .l => .movML
  | .a => .movMA

/-- The row of the opcode table for an LXI. -/
def lxiInstr : Rp → Instr
  | .bc => .lxiB
  | .de => .lxiD
  | .hl => .lxiH
  | .sp => .lxiSP

/-- The instruction an opcode byte selects: the opcode alone decides (30_encoding.md R80). -/
def decodeOp (op : Byte) : Instr :=
  match decodeFields op with
  | .movRegReg dst src => movRegRegInstr dst src
  | .movRegMem dst => movRegMemInstr dst
  | .movMemReg src => movMemRegInstr src
  | .lxi rp => lxiInstr rp
  | .invalid => if op = 0x76#8 then .reservedMovMM else .invalid op

/-- The verdict each constructor stands for. -/
def Instr.decoded : Instr → Decoded
  | .movBB => .movRegReg .b .b
  | .movBC => .movRegReg .b .c
  | .movBD => .movRegReg .b .d
  | .movBE => .movRegReg .b .e
  | .movBH => .movRegReg .b .h
  | .movBL => .movRegReg .b .l
  | .movBM => .movRegMem .b
  | .movBA => .movRegReg .b .a
  | .movCB => .movRegReg .c .b
  | .movCC => .movRegReg .c .c
  | .movCD => .movRegReg .c .d
  | .movCE => .movRegReg .c .e
  | .movCH => .movRegReg .c .h
  | .movCL => .movRegReg .c .l
  | .movCM => .movRegMem .c
  | .movCA => .movRegReg .c .a
  | .movDB => .movRegReg .d .b
  | .movDC => .movRegReg .d .c
  | .movDD => .movRegReg .d .d
  | .movDE => .movRegReg .d .e
  | .movDH => .movRegReg .d .h
  | .movDL => .movRegReg .d .l
  | .movDM => .movRegMem .d
  | .movDA => .movRegReg .d .a
  | .movEB => .movRegReg .e .b
  | .movEC => .movRegReg .e .c
  | .movED => .movRegReg .e .d
  | .movEE => .movRegReg .e .e
  | .movEH => .movRegReg .e .h
  | .movEL => .movRegReg .e .l
  | .movEM => .movRegMem .e
  | .movEA => .movRegReg .e .a
  | .movHB => .movRegReg .h .b
  | .movHC => .movRegReg .h .c
  | .movHD => .movRegReg .h .d
  | .movHE => .movRegReg .h .e
  | .movHH => .movRegReg .h .h
  | .movHL => .movRegReg .h .l
  | .movHM => .movRegMem .h
  | .movHA => .movRegReg .h .a
  | .movLB => .movRegReg .l .b
  | .movLC => .movRegReg .l .c
  | .movLD => .movRegReg .l .d
  | .movLE => .movRegReg .l .e
  | .movLH => .movRegReg .l .h
  | .movLL => .movRegReg .l .l
  | .movLM => .movRegMem .l
  | .movLA => .movRegReg .l .a
  | .movMB => .movMemReg .b
  | .movMC => .movMemReg .c
  | .movMD => .movMemReg .d
  | .movME => .movMemReg .e
  | .movMH => .movMemReg .h
  | .movML => .movMemReg .l
  | .movMA => .movMemReg .a
  | .movAB => .movRegReg .a .b
  | .movAC => .movRegReg .a .c
  | .movAD => .movRegReg .a .d
  | .movAE => .movRegReg .a .e
  | .movAH => .movRegReg .a .h
  | .movAL => .movRegReg .a .l
  | .movAM => .movRegMem .a
  | .movAA => .movRegReg .a .a
  | .reservedMovMM => .invalid
  | .lxiB => .lxi .bc
  | .lxiD => .lxi .de
  | .lxiH => .lxi .hl
  | .lxiSP => .lxi .sp
  | .invalid _ => .invalid

/-- Why a list of bytes is no instruction. Memory never ends (20_memory.md R50), so neither arises
from a fetch. -/
inductive DecodeError where
  /-- There is no opcode byte. Raised by `decodeBytes` only; safe. -/
  | noOpcode
  /-- An LXI opcode without its two operand bytes. Raised by `decodeBytes` only; safe. -/
  | truncatedOperand (op : Byte)
  deriving DecidableEq, Repr

/-- `(hi << 8) | lo` (00_scope.md R7): the one place where byte order is decided. -/
def joinBytes (hi lo : Byte) : Word16 := (hi.setWidth 16 <<< 8) ||| lo.setWidth 16

/-- The low byte of an immediate (30_encoding.md R81, byte 1). -/
def immLo (imm : Word16) : Byte := imm.extractLsb' 0 8

/-- The high byte of an immediate (30_encoding.md R81, byte 2). -/
def immHi (imm : Word16) : Byte := imm.extractLsb' 8 8

/-- The first instruction of a list of bytes at increasing addresses, with its operand bytes, and
the bytes after it (30_encoding.md R81, R89). -/
def decodeBytes : List Byte → Except DecodeError (FullInstr × List Byte)
  | [] => .error .noOpcode
  | op :: rest =>
    if (decodeOp op).isLxi then
      match rest with
      | lo :: hi :: after => .ok (⟨decodeOp op, some (joinBytes hi lo)⟩, after)
      | _ => .error (.truncatedOperand op)
    else .ok (⟨decodeOp op, none⟩, rest)

/-- Byte `n` of a word whose first byte is its least significant. -/
def wordByte (w n : Nat) : Byte := BitVec.ofNat 8 (w / 256 ^ n)

/-- The three bytes, at increasing addresses, of the instruction whose bits below `nbits` are those
of `w`, with every higher bit 0. Three bytes is the longest instruction (30_encoding.md R89). -/
def tableWordBytes (nbits w : Nat) : List Byte :=
  [wordByte (w % 2 ^ nbits) 0, wordByte (w % 2 ^ nbits) 1, wordByte (w % 2 ^ nbits) 2]

/-- The instruction the decoder reads from a word numbered as spec/opcode_table.json numbers it. -/
def decodeTableWord (nbits w : Nat) : Option Instr :=
  match decodeBytes (tableWordBytes nbits w) with
  | .ok (f, _) => some f.instr
  | .error _ => none

/-- The opcode byte of an instruction, from the opcode map (30_encoding.md R86). -/
def opcodeOf : Instr → Byte
  | .movBB => 0x40#8
  | .movBC => 0x41#8
  | .movBD => 0x42#8
  | .movBE => 0x43#8
  | .movBH => 0x44#8
  | .movBL => 0x45#8
  | .movBM => 0x46#8
  | .movBA => 0x47#8
  | .movCB => 0x48#8
  | .movCC => 0x49#8
  | .movCD => 0x4A#8
  | .movCE => 0x4B#8
  | .movCH => 0x4C#8
  | .movCL => 0x4D#8
  | .movCM => 0x4E#8
  | .movCA => 0x4F#8
  | .movDB => 0x50#8
  | .movDC => 0x51#8
  | .movDD => 0x52#8
  | .movDE => 0x53#8
  | .movDH => 0x54#8
  | .movDL => 0x55#8
  | .movDM => 0x56#8
  | .movDA => 0x57#8
  | .movEB => 0x58#8
  | .movEC => 0x59#8
  | .movED => 0x5A#8
  | .movEE => 0x5B#8
  | .movEH => 0x5C#8
  | .movEL => 0x5D#8
  | .movEM => 0x5E#8
  | .movEA => 0x5F#8
  | .movHB => 0x60#8
  | .movHC => 0x61#8
  | .movHD => 0x62#8
  | .movHE => 0x63#8
  | .movHH => 0x64#8
  | .movHL => 0x65#8
  | .movHM => 0x66#8
  | .movHA => 0x67#8
  | .movLB => 0x68#8
  | .movLC => 0x69#8
  | .movLD => 0x6A#8
  | .movLE => 0x6B#8
  | .movLH => 0x6C#8
  | .movLL => 0x6D#8
  | .movLM => 0x6E#8
  | .movLA => 0x6F#8
  | .movMB => 0x70#8
  | .movMC => 0x71#8
  | .movMD => 0x72#8
  | .movME => 0x73#8
  | .movMH => 0x74#8
  | .movML => 0x75#8
  | .movMA => 0x77#8
  | .movAB => 0x78#8
  | .movAC => 0x79#8
  | .movAD => 0x7A#8
  | .movAE => 0x7B#8
  | .movAH => 0x7C#8
  | .movAL => 0x7D#8
  | .movAM => 0x7E#8
  | .movAA => 0x7F#8
  | .reservedMovMM => 0x76#8
  | .lxiB => 0x01#8
  | .lxiD => 0x11#8
  | .lxiH => 0x21#8
  | .lxiSP => 0x31#8
  | .invalid op => op

/-- The length in bytes of an instruction's encoding (30_encoding.md R89); an INVALID opcode is the
one byte the caller has consumed. -/
def Instr.size (i : Instr) : Nat := if i.isLxi then 3 else 1

/-- The bytes of an instruction at increasing addresses: the opcode, then the low and the high
operand byte of an LXI (30_encoding.md R81, 20_memory.md R56). -/
def encode (f : FullInstr) : List Byte :=
  match f.imm with
  | some imm => [opcodeOf f.instr, immLo imm, immHi imm]
  | none => [opcodeOf f.instr]

end Sys2Proof
end

