-- ==== Sys2Proof/Config.lean ====
section
/-! DEFINITION. The implementation parameters of 00_scope.md R5: the three cycle costs, which "a model takes as
arguments". Every transaction function of the model takes a `Costs`; the values `exec` and `step` use are
`Machine.costs` (Machine/Costs.lean). -/

namespace Sys2Proof

/-- The cost parameters (00_scope.md R5). DESIGN CHOICE: natural numbers, since the spec gives the parameters no
width and calls the CYC sum exact (00_scope.md R8, 40_dispatch.md R107); safe (log entry 13). -/
structure Costs where
  /-- `MOV_BASE_CYCLES`, charged by every MOV. -/
  movBase : Nat
  /-- `MOV_MEM_SURCHARGE`, charged once by a MOV whose source or destination is M. -/
  movMemSurcharge : Nat
  /-- `LXI_CYCLES`, charged by every LXI. -/
  lxi : Nat
  deriving DecidableEq, Repr

end Sys2Proof
end

