-- ==== Sys2Proof/Machine/Costs.lean ====
section
/-! DEFINITION. The cost function of 40_dispatch.md R106 and the default parameter values of 00_scope.md R5. -/

namespace Sys2Proof.Machine

/-- Default of `MOV_BASE_CYCLES` (00_scope.md R5; UNVERIFIED: "an unaudited literal"; unsafe, log entry 2). -/
def movBaseCycles : Nat := 5

/-- Default of `MOV_MEM_SURCHARGE` (00_scope.md R5; UNVERIFIED: an unaudited literal; unsafe, log entry 2). -/
def movMemSurcharge : Nat := 2

/-- Default of `LXI_CYCLES` (00_scope.md R5; PRESUMED: the spec takes 10 from general knowledge; unsafe, log
entry 2). -/
def lxiCycles : Nat := 10

/-- The parameter values `exec` and `step` run with: the defaults of 00_scope.md R5. -/
def costs : Costs := ⟨movBaseCycles, movMemSurcharge, lxiCycles⟩

/-- The cost of a MOV; `mem` says that one operand is M (40_dispatch.md R106). -/
def movCost (k : Costs) (mem : Bool) : Nat := k.movBase + if mem then k.movMemSurcharge else 0

/-- The cost of an LXI, the same for every target (40_dispatch.md R106). -/
def lxiCost (k : Costs) : Nat := k.lxi

/-- `cost(d)` of 40_dispatch.md R106. -/
def costOf (k : Costs) : Decoded → Nat
  | .movRegReg _ _ => movCost k false
  | .movRegMem _ => movCost k true
  | .movMemReg _ => movCost k true
  | .lxi _ => lxiCost k
  | .invalid => 0

end Sys2Proof.Machine
end

