-- ==== Sys2Proof/Machine/State.lean ====
section
/-! DEFINITION. The state of the block: the record of 10_state.md R20, "exactly this record, and nothing
else", as plain data; why a step can stop; and the state construction leaves. -/

namespace Sys2Proof.Machine

/-- The byte memory (20_memory.md R50) as address and byte pairs. An address that is not listed reads
as 0x00, the value construction leaves in every byte (10_state.md R35, 20_memory.md R54). -/
abbrev Memory := List Host.Cell

/-- The canonical form: addresses strictly rising and below 65536, and no listed byte equal to the 0x00 that an
unlisted address reads as. -/
abbrev Memory.wf (m : Memory) : Prop :=
  m.Pairwise (fun x y => x.1 < y.1) ∧ ∀ x ∈ m, x.1 < 65536 ∧ x.2 ≠ 0#8

/-- What the error outcome records (10_state.md R33). -/
structure FaultRecord where
  /-- Always 0x01, UnimplementedOrInvalidOpcode (60_exceptions.md R221). -/
  code : Byte
  /-- The opcode the transaction carried. -/
  opcode : Byte
  /-- PC when the transaction started. -/
  pc : Word16
  /-- The entry point used. -/
  sel : Sel
  deriving DecidableEq, Repr

/-- The state vector (10_state.md R20). -/
structure State where
  /-- General register A (10_state.md R21). -/
  a : Byte
  /-- General register B. -/
  b : Byte
  /-- General register C. -/
  c : Byte
  /-- General register D. -/
  d : Byte
  /-- General register E. -/
  e : Byte
  /-- General register H. -/
  h : Byte
  /-- General register L. -/
  l : Byte
  /-- The flags register, an opaque byte (10_state.md R26). -/
  f : Byte
  /-- The program counter (10_state.md R27). -/
  pc : Word16
  /-- The stack pointer (10_state.md R29). -/
  sp : Word16
  /-- The memory (20_memory.md R50). -/
  mem : Memory
  /-- The cycle counter (10_state.md R31). -/
  cyc : Count
  /-- The fault latch (10_state.md R33). -/
  fault : Option FaultRecord
  deriving DecidableEq, Repr

/-- Why the block has no step. Both are the spec's own "no step": the block is stuck with its state unchanged. -/
inductive Fault where
  /-- FAULT is `Some`, so the block accepts no transaction until construction (40_dispatch.md R102). Raised by
  `accept`, on every instruction and every entry point. Safe: the spec gives the block no step here. -/
  | faultLatched
  /-- CYC plus the instruction's cost would exceed 2^64 - 1 (40_dispatch.md R107). Raised by `commit`, on MOV and
  LXI. Safe: the spec gives the block no step here. -/
  | cycLimit
  deriving DecidableEq, Repr

/-- Why an instruction has no meaning. No arm of `exec` refuses. -/
inductive Refusal where
  /-- The instruction is not modelled yet. Raised by no arm of `exec`: every instruction has its meaning. Safe. -/
  | notModelled (mnemonic : String)
  deriving DecidableEq, Repr

/-- The state construction leaves, the block's only reset (10_state.md R35, 70_reset_and_hazards.md R240). -/
def State.reset : State where
  a := 0x00#8
  b := 0x00#8
  c := 0x00#8
  d := 0x00#8
  e := 0x00#8
  h := 0x00#8
  l := 0x00#8
  f := 0x00#8
  pc := 0x0000#16
  sp := 0x0000#16
  mem := []
  cyc := 0#64
  fault := none

end Sys2Proof.Machine
end

