-- ==== Sys2Proof/Machine/Ops.lean ====
section
/-! DEFINITION. The named operations: registers and pairs, memory, the address-pointer primitives, and
the shared frame of a transaction (acceptance, commit, and the error outcome). -/

namespace Sys2Proof.Machine

/-- `x[r]` (00_scope.md R9). -/
def readReg (r : Reg) (s : State) : Byte :=
  match r with
  | .a => s.a
  | .b => s.b
  | .c => s.c
  | .d => s.d
  | .e => s.e
  | .h => s.h
  | .l => s.l

/-- `x[r] <- v` (00_scope.md R9). -/
def writeReg (r : Reg) (v : Byte) (s : State) : State :=
  match r with
  | .a => { s with a := v }
  | .b => { s with b := v }
  | .c => { s with c := v }
  | .d => { s with d := v }
  | .e => { s with e := v }
  | .h => { s with h := v }
  | .l => { s with l := v }

/-- `pair(hi, lo)`, a view computed from the current registers (10_state.md R24). -/
def pair (hi lo : Reg) (s : State) : Word16 := joinBytes (readReg hi s) (readReg lo s)

/-- HL, the address of the operand M (10_state.md R22, R24). -/
def hlAddr (s : State) : Word16 := pair .h .l s

/-- The byte at an address; an unlisted address reads as 0x00 (20_memory.md R54). -/
def Memory.read (m : Memory) (x : Nat) : Byte :=
  match m with
  | [] => 0x00#8
  | cell :: rest => if cell.1 = x then cell.2 else Memory.read rest x

/-- The memory without any entry for an address. -/
def Memory.drop (m : Memory) (x : Nat) : Memory :=
  match m with
  | [] => []
  | cell :: rest => if cell.1 = x then Memory.drop rest x else cell :: Memory.drop rest x

/-- Put an entry before the first entry at a higher address. -/
def Memory.place (m : Memory) (x : Nat) (v : Byte) : Memory :=
  match m with
  | [] => [(x, v)]
  | cell :: rest => if x < cell.1 then (x, v) :: cell :: rest else cell :: Memory.place rest x v

/-- Store a byte, keeping the canonical form: the 0x00 an unlisted address reads as is not listed. -/
def Memory.write (m : Memory) (x : Nat) (v : Byte) : Memory :=
  if v = 0x00#8 then Memory.drop m x else Memory.place (Memory.drop m x) x v

/-- `MemRead(addr, 1)`: no side effect, cannot fail (20_memory.md R53). -/
def memRead (addr : Word16) (s : State) : Byte := Memory.read s.mem addr.toNat

/-- `MemWrite(addr, 1, v)`: changes no other byte, cannot fail (20_memory.md R53). -/
def memWrite (addr : Word16) (v : Byte) (s : State) : State :=
  { s with mem := Memory.write s.mem addr.toNat v }

/-- The two address pointers (10_state.md R30). -/
inductive Pointer where
  | pc | sp
  deriving DecidableEq, Repr

/-- The value of an address pointer. -/
def ptrValue (p : Pointer) (s : State) : Word16 :=
  match p with
  | .pc => s.pc
  | .sp => s.sp

/-- `p <- v` for an address pointer (00_scope.md R9). -/
def ptrSet (p : Pointer) (v : Word16) (s : State) : State :=
  match p with
  | .pc => { s with pc := v }
  | .sp => { s with sp := v }

/-- `load(p)`: the byte at the pointer's value (10_state.md R30). -/
def ptrLoad (p : Pointer) (s : State) : Byte := memRead (ptrValue p s) s

/-- `store(p, b)` (10_state.md R30). -/
def ptrStore (p : Pointer) (v : Byte) (s : State) : State := memWrite (ptrValue p s) v s

/-- `p +16 1`: the increment wraps modulo 2^16 (00_scope.md R6; the spec's choice D5; unsafe, log entry 6). -/
def incr16 (v : Word16) : Word16 := v + 1#16

/-- `increment(p)` (10_state.md R30). -/
def ptrIncrement (p : Pointer) (s : State) : State := ptrSet p (incr16 (ptrValue p s)) s

/-- `CYC <- v` (40_dispatch.md R107). -/
def setCyc (v : Count) (s : State) : State := { s with cyc := v }

/-- `FAULT <- Some r` (60_exceptions.md R220). -/
def latchFault (r : FaultRecord) (s : State) : State := { s with fault := some r }

/-- A transaction is accepted only while FAULT is `None`; otherwise the block has no step (40_dispatch.md R102). -/
def accept (s : State) (body : Host.Outcome State Fault Refusal) : Host.Outcome State Fault Refusal :=
  match s.fault with
  | none => body
  | some _ => .fault .faultLatched

/-- Charge the cost to CYC and commit the staged state, or have no step when the exact sum exceeds 2^64 - 1
(40_dispatch.md R105, R107). -/
def commit (cost : Nat) (staged : State) : Host.Outcome State Fault Refusal :=
  if staged.cyc.toNat + cost ≤ 2 ^ 64 - 1 then
    .next (setCyc (BitVec.ofNat 64 (staged.cyc.toNat + cost)) staged)
  else .fault .cycLimit

/-- The cause code of the only exception (60_exceptions.md R221). -/
def invalidOpcodeCode : Byte := 0x01#8

/-- Taking the block's only exception, UnimplementedOrInvalidOpcode: FAULT records the opcode, PC and the entry
point, and nothing else changes (60_exceptions.md R220). It is a next state: the faulted one (log entry 3). There is
no return from it (60_exceptions.md R225). -/
def raiseInvalidOpcode (sel : Sel) (op : Byte) (s : State) : Host.Outcome State Fault Refusal :=
  .next (latchFault ⟨invalidOpcodeCode, op, s.pc, sel⟩ s)

end Sys2Proof.Machine
end

