-- ==== Sys2Proof/Machine/Invalid.lean ====
section
/-! DEFINITION. The INVALID opcodes: an accepted transaction takes the exception UnimplementedOrInvalidOpcode
(30_encoding.md R90, R91; 60_exceptions.md R220). -/

namespace Sys2Proof.Machine

/-- An INVALID opcode under any entry point (60_exceptions.md R220, case 1). -/
def invalidOpcode (sel : Sel) (op : Byte) (s : State) : Host.Outcome State Fault Refusal :=
  accept s (raiseInvalidOpcode sel op s)

/-- Opcode 0x76: not MOV M,M and no HALT, but the error outcome (30_encoding.md R90; D17). -/
def execReservedMovMM (s : State) : Host.Outcome State Fault Refusal := invalidOpcode .any 0x76#8 s

/-- Any of the other 188 INVALID opcodes (30_encoding.md R91; D18). -/
def execInvalid (op : Byte) (s : State) : Host.Outcome State Fault Refusal := invalidOpcode .any op s

end Sys2Proof.Machine
end

