-- ==== Sys2Proof/Machine/Operands.lean ====
section
/-! DEFINITION. The operand forms: a MOV operand (30_encoding.md R88), and the operand bytes an LXI consumes at PC
(42_lxi.md R200). -/

namespace Sys2Proof.Machine

/-- The value of a MOV operand; M is the byte at HL, from H and L as they are now (30_encoding.md R88). -/
def readOperand (o : Operand) (s : State) : Byte :=
  match o with
  | .reg r => readReg r s
  | .m => memRead (hlAddr s) s

/-- Write a MOV operand; for M the address is HL as it is before the write (41_mov.md R123). -/
def writeOperand (o : Operand) (v : Byte) (s : State) : State :=
  match o with
  | .reg r => writeReg r v s
  | .m => memWrite (hlAddr s) v s

/-- Consume one operand byte: the byte at PC, and the state with PC incremented (42_lxi.md R200). -/
def takeOperandByte (s : State) : Byte × State := (ptrLoad .pc s, ptrIncrement .pc s)

end Sys2Proof.Machine
end

