-- ==== Sys2Proof/Machine/Lxi.lean ====
section
/-! DEFINITION. The LXI family (42_lxi.md): what every LXI does once (R200), and one meaning per opcode
(R201 to R204) at the block's own costs. -/

namespace Sys2Proof.Machine

/-- LXI into a register pair: the byte at PC into the low register, PC incremented, the next byte into the high
register, PC incremented (42_lxi.md R201, R202, R203). -/
def stageLxiPair (hi lo : Reg) (s : State) : State :=
  let low := takeOperandByte s
  let afterLow := writeReg lo low.1 low.2
  let high := takeOperandByte afterLow
  writeReg hi high.1 high.2

/-- LXI into SP: both bytes are read before the one 16-bit write (42_lxi.md R204). -/
def stageLxiSp (s : State) : State :=
  let low := takeOperandByte s
  let high := takeOperandByte low.2
  ptrSet .sp (joinBytes high.1 low.1) high.2

/-- The staged effect of an LXI on its target. -/
def stageLxi (rp : Rp) (s : State) : State :=
  match rp with
  | .bc => stageLxiPair .b .c s
  | .de => stageLxiPair .d .e s
  | .hl => stageLxiPair .h .l s
  | .sp => stageLxiSp s

/-- The LXI of a target (42_lxi.md R200). -/
def lxiLoad (k : Costs) (rp : Rp) (s : State) : Host.Outcome State Fault Refusal :=
  accept s (commit (lxiCost k) (stageLxi rp s))

/-- LXI B,d16 (42_lxi.md R201). -/
def execLxiB (s : State) : Host.Outcome State Fault Refusal := lxiLoad costs .bc s

/-- LXI D,d16 (42_lxi.md R202). -/
def execLxiD (s : State) : Host.Outcome State Fault Refusal := lxiLoad costs .de s

/-- LXI H,d16 (42_lxi.md R203). -/
def execLxiH (s : State) : Host.Outcome State Fault Refusal := lxiLoad costs .hl s

/-- LXI SP,d16 (42_lxi.md R204). -/
def execLxiSP (s : State) : Host.Outcome State Fault Refusal := lxiLoad costs .sp s

end Sys2Proof.Machine
end

