-- ==== Sys2Proof/Machine/Mov.lean ====
section
/-! DEFINITION. The MOV family (41_mov.md): the three operand forms of R121, R122 and R123 once, and
one meaning per opcode (R130 to R192), each an instance of its form at the block's own costs. -/

namespace Sys2Proof.Machine

/-- MOV r1,r2 (41_mov.md R121). -/
def movRegReg (k : Costs) (dst src : Reg) (s : State) : Host.Outcome State Fault Refusal :=
  accept s (commit (movCost k false) (writeOperand (.reg dst) (readOperand (.reg src) s) s))

/-- MOV r,M (41_mov.md R122): the address is formed before the write. -/
def movRegMem (k : Costs) (dst : Reg) (s : State) : Host.Outcome State Fault Refusal :=
  accept s (commit (movCost k true) (writeOperand (.reg dst) (readOperand .m s) s))

/-- MOV M,r (41_mov.md R123). -/
def movMemReg (k : Costs) (src : Reg) (s : State) : Host.Outcome State Fault Refusal :=
  accept s (commit (movCost k true) (writeOperand .m (readOperand (.reg src) s) s))

/-- MOV B,B (41_mov.md R130). -/
def execMovBB (s : State) : Host.Outcome State Fault Refusal := movRegReg costs .b .b s

/-- MOV B,C (41_mov.md R131). -/
def execMovBC (s : State) : Host.Outcome State Fault Refusal := movRegReg costs .b .c s

/-- MOV B,D (41_mov.md R132). -/
def execMovBD (s : State) : Host.Outcome State Fault Refusal := movRegReg costs .b .d s

/-- MOV B,E (41_mov.md R133). -/
def execMovBE (s : State) : Host.Outcome State Fault Refusal := movRegReg costs .b .e s

/-- MOV B,H (41_mov.md R134). -/
def execMovBH (s : State) : Host.Outcome State Fault Refusal := movRegReg costs .b .h s

/-- MOV B,L (41_mov.md R135). -/
def execMovBL (s : State) : Host.Outcome State Fault Refusal := movRegReg costs .b .l s

/-- MOV B,M (41_mov.md R136). -/
def execMovBM (s : State) : Host.Outcome State Fault Refusal := movRegMem costs .b s

/-- MOV B,A (41_mov.md R137). -/
def execMovBA (s : State) : Host.Outcome State Fault Refusal := movRegReg costs .b .a s

/-- MOV C,B (41_mov.md R138). -/
def execMovCB (s : State) : Host.Outcome State Fault Refusal := movRegReg costs .c .b s

/-- MOV C,C (41_mov.md R139). -/
def execMovCC (s : State) : Host.Outcome State Fault Refusal := movRegReg costs .c .c s

/-- MOV C,D (41_mov.md R140). -/
def execMovCD (s : State) : Host.Outcome State Fault Refusal := movRegReg costs .c .d s

/-- MOV C,E (41_mov.md R141). -/
def execMovCE (s : State) : Host.Outcome State Fault Refusal := movRegReg costs .c .e s

/-- MOV C,H (41_mov.md R142). -/
def execMovCH (s : State) : Host.Outcome State Fault Refusal := movRegReg costs .c .h s

/-- MOV C,L (41_mov.md R143). -/
def execMovCL (s : State) : Host.Outcome State Fault Refusal := movRegReg costs .c .l s

/-- MOV C,M (41_mov.md R144). -/
def execMovCM (s : State) : Host.Outcome State Fault Refusal := movRegMem costs .c s

/-- MOV C,A (41_mov.md R145). -/
def execMovCA (s : State) : Host.Outcome State Fault Refusal := movRegReg costs .c .a s

/-- MOV D,B (41_mov.md R146). -/
def execMovDB (s : State) : Host.Outcome State Fault Refusal := movRegReg costs .d .b s

/-- MOV D,C (41_mov.md R147). -/
def execMovDC (s : State) : Host.Outcome State Fault Refusal := movRegReg costs .d .c s

/-- MOV D,D (41_mov.md R148). -/
def execMovDD (s : State) : Host.Outcome State Fault Refusal := movRegReg costs .d .d s

/-- MOV D,E (41_mov.md R149). -/
def execMovDE (s : State) : Host.Outcome State Fault Refusal := movRegReg costs .d .e s

/-- MOV D,H (41_mov.md R150). -/
def execMovDH (s : State) : Host.Outcome State Fault Refusal := movRegReg costs .d .h s

/-- MOV D,L (41_mov.md R151). -/
def execMovDL (s : State) : Host.Outcome State Fault Refusal := movRegReg costs .d .l s

/-- MOV D,M (41_mov.md R152). -/
def execMovDM (s : State) : Host.Outcome State Fault Refusal := movRegMem costs .d s

/-- MOV D,A (41_mov.md R153). -/
def execMovDA (s : State) : Host.Outcome State Fault Refusal := movRegReg costs .d .a s

/-- MOV E,B (41_mov.md R154). -/
def execMovEB (s : State) : Host.Outcome State Fault Refusal := movRegReg costs .e .b s

/-- MOV E,C (41_mov.md R155). -/
def execMovEC (s : State) : Host.Outcome State Fault Refusal := movRegReg costs .e .c s

/-- MOV E,D (41_mov.md R156). -/
def execMovED (s : State) : Host.Outcome State Fault Refusal := movRegReg costs .e .d s

/-- MOV E,E (41_mov.md R157). -/
def execMovEE (s : State) : Host.Outcome State Fault Refusal := movRegReg costs .e .e s

/-- MOV E,H (41_mov.md R158). -/
def execMovEH (s : State) : Host.Outcome State Fault Refusal := movRegReg costs .e .h s

/-- MOV E,L (41_mov.md R159). -/
def execMovEL (s : State) : Host.Outcome State Fault Refusal := movRegReg costs .e .l s

/-- MOV E,M (41_mov.md R160). -/
def execMovEM (s : State) : Host.Outcome State Fault Refusal := movRegMem costs .e s

/-- MOV E,A (41_mov.md R161). -/
def execMovEA (s : State) : Host.Outcome State Fault Refusal := movRegReg costs .e .a s

/-- MOV H,B (41_mov.md R162). -/
def execMovHB (s : State) : Host.Outcome State Fault Refusal := movRegReg costs .h .b s

/-- MOV H,C (41_mov.md R163). -/
def execMovHC (s : State) : Host.Outcome State Fault Refusal := movRegReg costs .h .c s

/-- MOV H,D (41_mov.md R164). -/
def execMovHD (s : State) : Host.Outcome State Fault Refusal := movRegReg costs .h .d s

/-- MOV H,E (41_mov.md R165). -/
def execMovHE (s : State) : Host.Outcome State Fault Refusal := movRegReg costs .h .e s

/-- MOV H,H (41_mov.md R166). -/
def execMovHH (s : State) : Host.Outcome State Fault Refusal := movRegReg costs .h .h s

/-- MOV H,L (41_mov.md R167). -/
def execMovHL (s : State) : Host.Outcome State Fault Refusal := movRegReg costs .h .l s

/-- MOV H,M (41_mov.md R168). -/
def execMovHM (s : State) : Host.Outcome State Fault Refusal := movRegMem costs .h s

/-- MOV H,A (41_mov.md R169). -/
def execMovHA (s : State) : Host.Outcome State Fault Refusal := movRegReg costs .h .a s

/-- MOV L,B (41_mov.md R170). -/
def execMovLB (s : State) : Host.Outcome State Fault Refusal := movRegReg costs .l .b s

/-- MOV L,C (41_mov.md R171). -/
def execMovLC (s : State) : Host.Outcome State Fault Refusal := movRegReg costs .l .c s

/-- MOV L,D (41_mov.md R172). -/
def execMovLD (s : State) : Host.Outcome State Fault Refusal := movRegReg costs .l .d s

/-- MOV L,E (41_mov.md R173). -/
def execMovLE (s : State) : Host.Outcome State Fault Refusal := movRegReg costs .l .e s

/-- MOV L,H (41_mov.md R174). -/
def execMovLH (s : State) : Host.Outcome State Fault Refusal := movRegReg costs .l .h s

/-- MOV L,L (41_mov.md R175). -/
def execMovLL (s : State) : Host.Outcome State Fault Refusal := movRegReg costs .l .l s

/-- MOV L,M (41_mov.md R176). -/
def execMovLM (s : State) : Host.Outcome State Fault Refusal := movRegMem costs .l s

/-- MOV L,A (41_mov.md R177). -/
def execMovLA (s : State) : Host.Outcome State Fault Refusal := movRegReg costs .l .a s

/-- MOV M,B (41_mov.md R178). -/
def execMovMB (s : State) : Host.Outcome State Fault Refusal := movMemReg costs .b s

/-- MOV M,C (41_mov.md R179). -/
def execMovMC (s : State) : Host.Outcome State Fault Refusal := movMemReg costs .c s

/-- MOV M,D (41_mov.md R180). -/
def execMovMD (s : State) : Host.Outcome State Fault Refusal := movMemReg costs .d s

/-- MOV M,E (41_mov.md R181). -/
def execMovME (s : State) : Host.Outcome State Fault Refusal := movMemReg costs .e s

/-- MOV M,H (41_mov.md R182). -/
def execMovMH (s : State) : Host.Outcome State Fault Refusal := movMemReg costs .h s

/-- MOV M,L (41_mov.md R183). -/
def execMovML (s : State) : Host.Outcome State Fault Refusal := movMemReg costs .l s

/-- MOV M,A (41_mov.md R184). -/
def execMovMA (s : State) : Host.Outcome State Fault Refusal := movMemReg costs .a s

/-- MOV A,B (41_mov.md R185). -/
def execMovAB (s : State) : Host.Outcome State Fault Refusal := movRegReg costs .a .b s

/-- MOV A,C (41_mov.md R186). -/
def execMovAC (s : State) : Host.Outcome State Fault Refusal := movRegReg costs .a .c s

/-- MOV A,D (41_mov.md R187). -/
def execMovAD (s : State) : Host.Outcome State Fault Refusal := movRegReg costs .a .d s

/-- MOV A,E (41_mov.md R188). -/
def execMovAE (s : State) : Host.Outcome State Fault Refusal := movRegReg costs .a .e s

/-- MOV A,H (41_mov.md R189). -/
def execMovAH (s : State) : Host.Outcome State Fault Refusal := movRegReg costs .a .h s

/-- MOV A,L (41_mov.md R190). -/
def execMovAL (s : State) : Host.Outcome State Fault Refusal := movRegReg costs .a .l s

/-- MOV A,M (41_mov.md R191). -/
def execMovAM (s : State) : Host.Outcome State Fault Refusal := movRegMem costs .a s

/-- MOV A,A (41_mov.md R192). -/
def execMovAA (s : State) : Host.Outcome State Fault Refusal := movRegReg costs .a .a s

end Sys2Proof.Machine
end

