-- ==== Sys2Proof/Machine/Transaction.lean ====
section
/-! DEFINITION. The EXECUTE transaction with all three entry points and the cost parameters as an argument
(40_dispatch.md R100 to R107). `exec` of Machine/Dispatch.lean is its sel = ANY case at the default costs. -/

namespace Sys2Proof.Machine

/-- Run a decoded instruction after the family check of 40_dispatch.md R103: the MOV forms are rejected under
sel = LXI, an LXI under sel = MOV, and INVALID under every sel. -/
def runChecked (k : Costs) (sel : Sel) (op : Byte) (d : Decoded) (s : State) : Host.Outcome State Fault Refusal :=
  match d with
  | .movRegReg dst src => if sel = .lxi then invalidOpcode sel op s else movRegReg k dst src s
  | .movRegMem dst => if sel = .lxi then invalidOpcode sel op s else movRegMem k dst s
  | .movMemReg src => if sel = .lxi then invalidOpcode sel op s else movMemReg k src s
  | .lxi rp => if sel = .mov then invalidOpcode sel op s else lxiLoad k rp s
  | .invalid => invalidOpcode sel op s

/-- `EXECUTE(sel, op)` (40_dispatch.md R105). -/
def executeWith (k : Costs) (sel : Sel) (op : Byte) (s : State) : Host.Outcome State Fault Refusal :=
  runChecked k sel op (decodeFields op) s

/-- `execute_mov(op)` at the default costs (40_dispatch.md R101). -/
def executeMov (op : Byte) (s : State) : Host.Outcome State Fault Refusal := executeWith costs .mov op s

/-- `execute_lxi(op)` at the default costs (40_dispatch.md R101). -/
def executeLxi (op : Byte) (s : State) : Host.Outcome State Fault Refusal := executeWith costs .lxi op s

/-- `EXECUTE(ANY, op)`, the unified dispatcher, at the default costs (40_dispatch.md R101). -/
def executeAny (op : Byte) (s : State) : Host.Outcome State Fault Refusal := executeWith costs .any op s

/-- Does the family check pass (40_dispatch.md R103)? -/
def familyAccepts (sel : Sel) (d : Decoded) : Bool :=
  match d, sel with
  | .invalid, _ => false
  | .lxi _, .mov => false
  | .lxi _, .lxi => true
  | .lxi _, .any => true
  | .movRegReg _ _, .lxi => false
  | .movRegReg _ _, .mov => true
  | .movRegReg _ _, .any => true
  | .movRegMem _, .lxi => false
  | .movRegMem _, .mov => true
  | .movRegMem _, .any => true
  | .movMemReg _, .lxi => false
  | .movMemReg _, .mov => true
  | .movMemReg _, .any => true

/-- What a transaction returns to its caller (40_dispatch.md R100). -/
inductive Reply where
  /-- The instruction ran and its effects are committed. -/
  | ok
  /-- The error outcome, with the opcode and PC of the transaction (60_exceptions.md R220). -/
  | err (op : Byte) (pc : Word16)
  deriving DecidableEq, Repr

/-- The value `EXECUTE(sel, op)` returns; none when the block has no step (40_dispatch.md R100). -/
def replyWith (k : Costs) (sel : Sel) (op : Byte) (s : State) : Option Reply :=
  match executeWith k sel op s with
  | .next _ => if familyAccepts sel (decodeFields op) then some .ok else some (.err op s.pc)
  | .fault _ => none
  | .refused _ => none

end Sys2Proof.Machine
end

