-- ==== Sys2Proof/Machine/Driver.lean ====
section
/-! DEFINITION. The reference driver of 40_dispatch.md R111: fetch Mem[PC], increment PC, EXECUTE(ANY, op). It adds
nothing to CYC. -/

namespace Sys2Proof.Machine

/-- The opcode the driver fetches: Mem[PC] (40_dispatch.md R111). -/
def fetchOpcode (s : State) : Byte := ptrLoad .pc s

/-- The driver consumes the opcode byte (40_dispatch.md R111). -/
def consumeOpcode (s : State) : State := ptrIncrement .pc s

/-- One driver step around a given EXECUTE(ANY, op). If EXECUTE has no step, neither has the driver, and its
increment does not happen (40_dispatch.md R111). -/
def driverStep (execute : Byte → State → Host.Outcome State Fault Refusal) (s : State) :
    Host.Outcome State Fault Refusal :=
  execute (fetchOpcode s) (consumeOpcode s)

/-- The driver step with the cost parameters as an argument. -/
def driverStepWith (k : Costs) (s : State) : Host.Outcome State Fault Refusal :=
  driverStep (executeWith k .any) s

/-- What the driver step returns: the reply of its EXECUTE; none when it has no step (40_dispatch.md R111). -/
def driverReplyWith (k : Costs) (s : State) : Option Reply := replyWith k .any (fetchOpcode s) (consumeOpcode s)

/-- Store bytes at increasing addresses, as the host does before a run (70_reset_and_hazards.md R243). -/
def storeBytes (x : Word16) (bytes : List Byte) (s : State) : State :=
  match bytes with
  | [] => s
  | v :: rest => storeBytes (incr16 x) rest (memWrite x v s)

end Sys2Proof.Machine
end

