-- ==== Sys2Proof/Machine/Step.lean ====
section
/-! DEFINITION. The step: one step of the reference driver (40_dispatch.md R111) over `exec`. -/

namespace Sys2Proof.Machine

/-- Fetch the opcode at PC, increment PC, and run the decoded instruction. -/
def step (s : State) : Host.Outcome State Fault Refusal :=
  driverStep (fun op t => exec (decodeOp op) t) s

/-- `s` with the instruction whose bits below `nbits` are those of `w` stored where `step` fetches: three bytes, the
longest instruction, at PC. It stands for the host's placing of a program (70_reset_and_hazards.md R243; log
entry 9). -/
def State.withFetchWord (s : State) (nbits w : Nat) : State :=
  storeBytes s.pc (tableWordBytes nbits w) s

end Sys2Proof.Machine
end

