-- ==== Sys2Proof/Machine/Flags.lean ====
section
/-! DEFINITION. The flags register F. The spec gives it no named bit and no flag computation: "No instruction of
this block reads or writes F, and no instruction sets a flag as a side effect" (10_state.md R26, 40_dispatch.md
R113). Only the host reads and writes it, as a whole byte (60_exceptions.md R231, R233). -/

namespace Sys2Proof.Machine

/-- F as the host reads it (60_exceptions.md R231). -/
def readF (s : State) : Byte := s.f

/-- F as the host writes it: any u8 (60_exceptions.md R233). -/
def writeF (v : Byte) (s : State) : State := { s with f := v }

end Sys2Proof.Machine
end

