-- ==== Sys2Proof/Machine/Port.lean ====
section
/-! DEFINITION. The host's port: what it can read (60_exceptions.md R231) and write (R233) between transactions. A
host access is no step of the block (log entry 11). -/

namespace Sys2Proof.Machine

/-- A state element the host can read (60_exceptions.md R231). -/
inductive Element where
  | reg (r : Reg)
  | f
  | ptr (p : Pointer)
  | mem (x : Word16)
  | cyc
  | fault
  deriving DecidableEq, Repr

/-- The value of a state element. -/
inductive ElementValue where
  | u8 (v : Byte)
  | u16 (v : Word16)
  | u64 (v : Count)
  | record (v : Option FaultRecord)
  deriving DecidableEq, Repr

/-- A host read; it has no effect on state (60_exceptions.md R231). -/
def portRead (e : Element) (s : State) : ElementValue :=
  match e with
  | .reg r => .u8 (readReg r s)
  | .f => .u8 (readF s)
  | .ptr p => .u16 (ptrValue p s)
  | .mem x => .u8 (memRead x s)
  | .cyc => .u64 s.cyc
  | .fault => .record s.fault

/-- A host write: CYC and FAULT have none (60_exceptions.md R233). -/
inductive PortWrite where
  | reg (r : Reg) (v : Byte)
  | f (v : Byte)
  | ptr (p : Pointer) (v : Word16)
  | mem (x : Word16) (v : Byte)
  deriving DecidableEq, Repr

/-- The state after a host write; any value is legal (60_exceptions.md R233). -/
def portWrite (w : PortWrite) (s : State) : State :=
  match w with
  | .reg r v => writeReg r v s
  | .f v => writeF v s
  | .ptr p v => ptrSet p v s
  | .mem x v => memWrite x v s

end Sys2Proof.Machine
end

