-- ==== Sys2Proof/Machine/Run.lean ====
section
/-! DEFINITION. Runs of the reference driver and the two ends the spec defines for them (40_dispatch.md R112). "THIS
DEFINITION DOES NOT SAY that the real processor would stop there." -/

namespace Sys2Proof.Machine

/-- An error outcome has been recorded in the state (60_exceptions.md R220); such a state is never a normal end of a
run (40_dispatch.md R112). -/
def State.faulted (s : State) : Bool := s.fault.isSome

/-- `seq 0`, `seq 1`, … up to `seq n` is a run of `n` driver steps from `seq 0` (40_dispatch.md R112). -/
def IsRun (drive : State → Host.Outcome State Fault Refusal) (n : Nat) (seq : Nat → State) : Prop :=
  ∀ j, j < n → drive (seq j) = .next (seq (j + 1))

/-- How a run of `n` stated steps comes out. -/
inductive RunEnd where
  /-- "The state after N committed steps": the normal end (40_dispatch.md R112). -/
  | committed (s : State)
  /-- "The state in which the first error outcome was recorded": faulted, never a normal end (40_dispatch.md R112). -/
  | faulted (s : State)
  /-- The driver has no step in this state (40_dispatch.md R111), so the run has none of the two ends. DESIGN CHOICE:
  named apart from them; safe (log entry 15). -/
  | noStep (s : State)
  deriving DecidableEq, Repr

/-- Run `n` driver steps, or as far as the first recorded error or the first state without a step (40_dispatch.md
R112). DESIGN CHOICE: a start state that is faulted already is a faulted end of its own; safe (log entry 15). -/
def runBy (drive : State → Host.Outcome State Fault Refusal) (n : Nat) (s : State) : RunEnd :=
  if s.faulted then .faulted s
  else
    match n with
    | 0 => .committed s
    | m + 1 =>
      match drive s with
      | .next t => runBy drive m t
      | .fault _ => .noStep s
      | .refused _ => .noStep s

/-- A run of the reference driver with the cost parameters as an argument. -/
def runWith (k : Costs) (n : Nat) (s : State) : RunEnd := runBy (driverStepWith k) n s

/-- A run of `step`: the reference driver at the default costs. -/
def run (n : Nat) (s : State) : RunEnd := runBy step n s

end Sys2Proof.Machine
end

