-- ==== Sys2Proof/Machine/Signals.lean ====
section
/-! DEFINITION. The decoder as the combinational block of 30_encoding.md R93. -/

namespace Sys2Proof.Machine

/-- The signal `kind`. DESIGN CHOICE: by name, since R93 gives its two bits no code; safe (log entry 14). -/
inductive Kind where
  | mov | lxi | invalid
  deriving DecidableEq, Repr

/-- The outputs of the decoder (30_encoding.md R93). -/
structure Signals where
  kind : Kind
  dst : BitVec 3
  src : BitVec 3
  rp : BitVec 2
  memSrc : Bool
  memDst : Bool
  len : BitVec 2
  cost : Count
  deriving DecidableEq, Repr

/-- The kind of a verdict. -/
def kindOf : Decoded → Kind
  | .movRegReg _ _ => .mov
  | .movRegMem _ => .mov
  | .movMemReg _ => .mov
  | .lxi _ => .lxi
  | .invalid => .invalid

/-- The length signal: 1 for MOV, 3 for LXI, 0 for INVALID (30_encoding.md R93). -/
def lenOf : Kind → BitVec 2
  | .mov => 1#2
  | .lxi => 3#2
  | .invalid => 0#2

/-- `mem_src` of a verdict: a MOV whose source is M. -/
def memSrcOf : Decoded → Bool
  | .movRegReg _ _ => false
  | .movRegMem _ => true
  | .movMemReg _ => false
  | .lxi _ => false
  | .invalid => false

/-- `mem_dst` of a verdict: a MOV whose destination is M. -/
def memDstOf : Decoded → Bool
  | .movRegReg _ _ => false
  | .movRegMem _ => false
  | .movMemReg _ => true
  | .lxi _ => false
  | .invalid => false

/-- The decoder's outputs for an opcode (30_encoding.md R93). -/
def signals (k : Costs) (op : Byte) : Signals where
  kind := kindOf (decodeFields op)
  dst := dstField op
  src := srcField op
  rp := rpField op
  memSrc := memSrcOf (decodeFields op)
  memDst := memDstOf (decodeFields op)
  len := lenOf (kindOf (decodeFields op))
  cost := BitVec.ofNat 64 (costOf k (decodeFields op))

end Sys2Proof.Machine
end

