-- ==== Sys2Proof/Safety.lean ====
section
/-! DEFINITION. What claims are stated in: when a transaction is free to commit, the invariant, the spec's
worked-example presets, and the block written out a second time, directly over the spec's own state record with
memory as a function (10_state.md R20), as the reference that the model refines. -/

namespace Sys2Proof.Machine

/-- The block accepts a transaction (40_dispatch.md R102) and CYC has room for its cost (R107). -/
abbrev Ready (cost : Nat) (s : State) : Prop :=
  s.fault = none ∧ s.cyc.toNat + cost ≤ 2 ^ 64 - 1

/-- What the error outcome of `sel` and `op` in state `s` records (60_exceptions.md R220). -/
def recordOf (sel : Sel) (op : Byte) (s : State) : FaultRecord := ⟨0x01#8, op, s.pc, sel⟩

/-- A fault record the block can have written: the one code, and an opcode its entry point rejects
(10_state.md R33, 60_exceptions.md R220, R221). -/
def FaultRecord.ok (r : FaultRecord) : Bool :=
  r.code == 0x01#8 && !familyAccepts r.sel (decodeFields r.opcode)

/-- The invariant: memory is in its canonical form, and a latched record is one the block writes. -/
abbrev State.Inv (s : State) : Prop :=
  Memory.wf s.mem ∧ s.fault.all FaultRecord.ok = true

/-- The worked-example preset of 41_mov.md (not a reset state). -/
def movPreset : State :=
  { State.reset with
    a := 0xA1#8, b := 0xB2#8, c := 0xC3#8, d := 0xD4#8, e := 0xE5#8, h := 0x12#8, l := 0x34#8,
    pc := 0x0100#16, mem := [(0x1234, 0x5A#8)] }

/-- The worked-example preset of 42_lxi.md (not a reset state). -/
def lxiPreset : State :=
  { State.reset with pc := 0xCAFE#16, mem := [(0xCAFE, 0xAB#8), (0xCAFF, 0xCD#8)] }

/-- The opcode byte `01DDDSSS` (30_encoding.md R81). -/
def movWord (dst src : BitVec 3) : Byte := 0b01#2 ++ dst ++ src

/-- The opcode byte `00RP0001` (30_encoding.md R81). -/
def lxiWord (rp : BitVec 2) : Byte := 0b00#2 ++ rp ++ 0b0001#4

/-- The register codes of 10_state.md R22 (110 is M, no register). -/
def regCode : Reg → BitVec 3
  | .b => 0b000#3
  | .c => 0b001#3
  | .d => 0b010#3
  | .e => 0b011#3
  | .h => 0b100#3
  | .l => 0b101#3
  | .a => 0b111#3

/-- The code of M (10_state.md R22). -/
def memCode : BitVec 3 := 0b110#3

/-- The target codes of 10_state.md R25. -/
def rpCode : Rp → BitVec 2
  | .bc => 0b00#2
  | .de => 0b01#2
  | .hl => 0b10#2
  | .sp => 0b11#2

/-- The opcode is a MOV: the inclusive range 0x40 to 0x7F except 0x76 (30_encoding.md R84). -/
def isMovOpcode (op : Byte) : Bool := 0x40#8 ≤ op && op ≤ 0x7F#8 && op != 0x76#8

/-- The opcode is an LXI: exactly 0x01, 0x11, 0x21 and 0x31 (30_encoding.md R85). -/
def isLxiOpcode (op : Byte) : Bool := op == 0x01#8 || op == 0x11#8 || op == 0x21#8 || op == 0x31#8

/-- The opcode stores to memory: the block 0x70 to 0x77 except 0x76 (30_encoding.md R84). -/
def isStoreOpcode (op : Byte) : Bool := 0x70#8 ≤ op && op ≤ 0x77#8 && op != 0x76#8

/-- The entry point `sel` does not accept the opcode: one of the three cases of 60_exceptions.md R220. -/
def rejected (sel : Sel) (op : Byte) : Bool :=
  (!isMovOpcode op && !isLxiOpcode op) || (sel == .mov && isLxiOpcode op) || (sel == .lxi && isMovOpcode op)

/-- The cost of an opcode that is a MOV or an LXI (40_dispatch.md R106): the surcharge once, if either code of a MOV
is 110. -/
def opcodeCost (k : Costs) (op : Byte) : Nat :=
  if isLxiOpcode op then k.lxi
  else k.movBase + if op.extractLsb' 3 3 = memCode ∨ op.extractLsb' 0 3 = memCode then k.movMemSurcharge else 0

/-- Apply a function to the next state of an outcome. -/
def mapNext (g : State → State) : Host.Outcome State Fault Refusal → Host.Outcome State Fault Refusal
  | .next s => .next (g s)
  | .fault r => .fault r
  | .refused r => .refused r

/-- The spec's state record (10_state.md R20) with registers and memory as functions and CYC as a number. -/
structure RefState where
  reg : Reg → Byte
  f : Byte
  pc : Word16
  sp : Word16
  mem : Word16 → Byte
  cyc : Nat
  fault : Option FaultRecord

/-- The record a model state stands for. -/
def State.ref (s : State) : RefState where
  reg r := readReg r s
  f := s.f
  pc := s.pc
  sp := s.sp
  mem x := memRead x s
  cyc := s.cyc.toNat
  fault := s.fault

/-- The reference state an outcome stands for; none where the block has no step. -/
def refOutcome : Host.Outcome State Fault Refusal → Option RefState
  | .next s => some s.ref
  | .fault _ => none
  | .refused _ => none

/-- The register with a code other than 110 (10_state.md R22). -/
def refReg (code : BitVec 3) : Reg :=
  if code = 0b000#3 then .b
  else if code = 0b001#3 then .c
  else if code = 0b010#3 then .d
  else if code = 0b011#3 then .e
  else if code = 0b100#3 then .h
  else if code = 0b101#3 then .l
  else .a

/-- HL of the reference state (10_state.md R24). -/
def RefState.hl (s : RefState) : Word16 := s.reg .h ++ s.reg .l

/-- The value of a MOV operand code in the reference state (30_encoding.md R88). -/
def RefState.operand (s : RefState) (code : BitVec 3) : Byte :=
  if code = memCode then s.mem s.hl else s.reg (refReg code)

/-- Replace the register `r` of the reference state. -/
def RefState.setReg (s : RefState) (r : Reg) (v : Byte) : RefState :=
  { s with reg := fun q => if q = r then v else s.reg q }

/-- The effect of `MOV(dst, src)` (41_mov.md R121, R122, R123). -/
def RefState.mov (s : RefState) (dst src : BitVec 3) : RefState :=
  if dst = memCode then
    { s with mem := fun x => if x = s.hl then s.operand src else s.mem x }
  else s.setReg (refReg dst) (s.operand src)

/-- The effect of `LXI(rp)` (42_lxi.md R201 to R204). -/
def RefState.lxi (s : RefState) (rp : BitVec 2) : RefState :=
  let low := s.mem s.pc
  let high := s.mem (s.pc + 1#16)
  let t := { s with pc := s.pc + 2#16 }
  if rp = 0b00#2 then (t.setReg .c low).setReg .b high
  else if rp = 0b01#2 then (t.setReg .e low).setReg .d high
  else if rp = 0b10#2 then (t.setReg .l low).setReg .h high
  else { t with sp := high ++ low }

/-- The error outcome on the reference state (60_exceptions.md R220). -/
def RefState.raise (s : RefState) (sel : Sel) (op : Byte) : RefState :=
  { s with fault := some ⟨0x01#8, op, s.pc, sel⟩ }

/-- Charge a cost and commit, or no step (40_dispatch.md R107). -/
def RefState.charge (s : RefState) (cost : Nat) : Option RefState :=
  if s.cyc + cost < 2 ^ 64 then some { s with cyc := s.cyc + cost } else none

/-- `EXECUTE(sel, op)` on the reference state (40_dispatch.md R103, R105, R106, R107). -/
def refExecute (k : Costs) (sel : Sel) (op : Byte) (s : RefState) : Option RefState :=
  if s.fault.isSome then none
  else if isMovOpcode op then
    if sel = .lxi then some (s.raise sel op)
    else (s.mov (op.extractLsb' 3 3) (op.extractLsb' 0 3)).charge (opcodeCost k op)
  else if isLxiOpcode op then
    if sel = .mov then some (s.raise sel op)
    else (s.lxi (op.extractLsb' 4 2)).charge (opcodeCost k op)
  else some (s.raise sel op)

/-- The driver step on the reference state (40_dispatch.md R111). -/
def refDriverStep (k : Costs) (s : RefState) : Option RefState :=
  refExecute k .any (s.mem s.pc) { s with pc := s.pc + 1#16 }

end Sys2Proof.Machine
end

