-- ==== Sys2Proof/Certificates/Slice0/Obligations.lean ====
section
/-! DEFINITION. The statements for the provers, from the numbered rules of spec/. -/

open Sys2Proof Sys2Proof.Machine

/-- What one rule of 41_mov.md R130 to R192 says of its opcode: the fields and the decoding, the effect and the cost
through `exec` and through the MOV and ANY entry points at any cost parameters, the error under execute_lxi, and the
worked example from the preset. `mem` says that one operand is M. -/
def Sys2Proof.Machine.MovOpcodeRule (op : Byte) (i : Instr) (ddd sss : BitVec 3) (mem : Bool)
    (effect : State → State) (worked : State) : Prop :=
  op = movWord ddd sss ∧ decodeOp op = i ∧
  (∀ s, Ready (if mem then 7 else 5) s →
    exec i s = .next { effect s with cyc := s.cyc + if mem then 7#64 else 5#64 }) ∧
  (∀ k sel s, sel ≠ .lxi → Ready (k.movBase + if mem then k.movMemSurcharge else 0) s →
    executeWith k sel op s = .next { effect s with
      cyc := s.cyc + BitVec.ofNat 64 (k.movBase + if mem then k.movMemSurcharge else 0) }) ∧
  (∀ k s, s.fault = none → executeWith k .lxi op s = .next { s with fault := some (recordOf .lxi op s) }) ∧
  executeMov op movPreset = .next worked

/-- What one rule of 42_lxi.md R201 to R204 says of its opcode: the field and the decoding, the effect and the cost
through `exec` and through the LXI and ANY entry points at any cost parameter, the error under execute_mov, the wraps
of R200, and the worked example from the preset. -/
def Sys2Proof.Machine.LxiOpcodeRule (op : Byte) (i : Instr) (code : BitVec 2) (effect : State → State)
    (worked : State) : Prop :=
  op = lxiWord code ∧ decodeOp op = i ∧
  (∀ s, Ready 10 s → exec i s = .next { effect s with cyc := s.cyc + 10#64 }) ∧
  (∀ k sel s, sel ≠ .mov → Ready k.lxi s →
    executeWith k sel op s = .next { effect s with cyc := s.cyc + BitVec.ofNat 64 k.lxi }) ∧
  (∀ k s, s.fault = none → executeWith k .mov op s = .next { s with fault := some (recordOf .mov op s) }) ∧
  (∀ s, s.pc = 0xFFFF#16 → s.pc + 1#16 = 0x0000#16 ∧ (effect s).pc = 0x0001#16) ∧
  (∀ s, s.pc = 0xFFFE#16 → s.pc + 1#16 = 0xFFFF#16 ∧ (effect s).pc = 0x0000#16) ∧
  executeLxi op lxiPreset = .next worked

/-- The registers an LXI target consists of (10_state.md R24, R25). -/
def Sys2Proof.Machine.targetRegs : Rp → List Reg
  | .bc => [.b, .c]
  | .de => [.d, .e]
  | .hl => [.h, .l]
  | .sp => []

/-- The 16-bit value of an LXI target (10_state.md R24, R25). -/
def Sys2Proof.Machine.targetValue (rp : Rp) (s : State) : Word16 :=
  match rp with
  | .bc => s.b ++ s.c
  | .de => s.d ++ s.e
  | .hl => s.h ++ s.l
  | .sp => s.sp

/-- The element a host write names (60_exceptions.md R233). -/
def Sys2Proof.Machine.writtenElement : PortWrite → Element
  | .reg r _ => .reg r
  | .f _ => .f
  | .ptr p _ => .ptr p
  | .mem x _ => .mem x

/-- The value a host write carries. -/
def Sys2Proof.Machine.writtenValue : PortWrite → ElementValue
  | .reg _ v => .u8 v
  | .f v => .u8 v
  | .ptr _ v => .u16 v
  | .mem _ v => .u8 v

/-- Words of each form, written bit by bit from 30_encoding.md R81 (a sanity statement). -/
def Obligations.OpcodeWordsDecodeAsTheSpecSays : Prop :=
  decodeOp 0b01111000#8 = .movAB ∧ decodeOp 0b01000110#8 = .movBM ∧ decodeOp 0b01110111#8 = .movMA ∧
  decodeOp 0b00000001#8 = .lxiB ∧ decodeOp 0b00010001#8 = .lxiD ∧ decodeOp 0b00100001#8 = .lxiH ∧
  decodeOp 0b00110001#8 = .lxiSP ∧ decodeOp 0b01110110#8 = .reservedMovMM ∧
  decodeOp 0b00000000#8 = .invalid 0x00#8 ∧ decodeOp 0b00111111#8 = .invalid 0x3F#8 ∧
  decodeOp 0b10000000#8 = .invalid 0x80#8

/-- Decode and encode agree, for every instruction, immediate and rest of memory (30_encoding.md sections 1 to 4). -/
def Obligations.DecodeOfEncodeIsTheInstruction : Prop :=
  ∀ (f : FullInstr) (rest : List Byte), f.wf = true → decodeBytes (encode f ++ rest) = .ok (f, rest)

/-- Encode and decode agree: each word has one meaning (30_encoding.md R86, R92). -/
def Obligations.EncodeOfDecodeIsTheBytes : Prop :=
  ∀ (bytes : List Byte) (f : FullInstr) (rest : List Byte),
    decodeBytes bytes = .ok (f, rest) → f.wf = true ∧ encode f ++ rest = bytes

/-- The counts of 30_encoding.md R92 and the ranges of R84, R85 and R91. -/
def Obligations.OpcodeSpaceIsSplitIntoThreeKinds : Prop :=
  (List.range 256).countP (fun n => kindOf (decodeFields (BitVec.ofNat 8 n)) == .mov) = 63 ∧
  (List.range 256).countP (fun n => kindOf (decodeFields (BitVec.ofNat 8 n)) == .lxi) = 4 ∧
  (List.range 256).countP (fun n => kindOf (decodeFields (BitVec.ofNat 8 n)) == .invalid) = 189 ∧
  ∀ op : Byte, kindOf (decodeFields op) =
    if isMovOpcode op then .mov else if isLxiOpcode op then .lxi else .invalid

/-- The signals of 30_encoding.md R93. The code of `kind` is the model's choice of names (log entry 14). -/
def Obligations.DecoderSignalsFollowTheOpcode : Prop :=
  ∀ (k : Costs) (op : Byte),
    (signals k op).kind = (if isMovOpcode op then .mov else if isLxiOpcode op then .lxi else .invalid) ∧
    (signals k op).dst = op.extractLsb' 3 3 ∧ (signals k op).src = op.extractLsb' 0 3 ∧
    (signals k op).rp = op.extractLsb' 4 2 ∧
    (signals k op).memSrc = (isMovOpcode op && op.extractLsb' 0 3 == memCode) ∧
    (signals k op).memDst = (isMovOpcode op && op.extractLsb' 3 3 == memCode) ∧
    ((signals k op).memSrc && (signals k op).memDst) = false ∧
    (signals k op).len = (if isMovOpcode op then 1#2 else if isLxiOpcode op then 3#2 else 0#2) ∧
    (signals k op).cost =
      (if isMovOpcode op || isLxiOpcode op then BitVec.ofNat 64 (opcodeCost k op) else 0#64)

/-- 41_mov.md R130 to R137: every MOV into B. -/
def Obligations.MovIntoBFollowsItsRules : Prop :=
  MovOpcodeRule 0x40#8 .movBB 0b000#3 0b000#3 false
    (fun s => { s with b := s.b })
    { movPreset with cyc := 5#64 } ∧
  MovOpcodeRule 0x41#8 .movBC 0b000#3 0b001#3 false
    (fun s => { s with b := s.c })
    { movPreset with b := 0xC3#8, cyc := 5#64 } ∧
  MovOpcodeRule 0x42#8 .movBD 0b000#3 0b010#3 false
    (fun s => { s with b := s.d })
    { movPreset with b := 0xD4#8, cyc := 5#64 } ∧
  MovOpcodeRule 0x43#8 .movBE 0b000#3 0b011#3 false
    (fun s => { s with b := s.e })
    { movPreset with b := 0xE5#8, cyc := 5#64 } ∧
  MovOpcodeRule 0x44#8 .movBH 0b000#3 0b100#3 false
    (fun s => { s with b := s.h })
    { movPreset with b := 0x12#8, cyc := 5#64 } ∧
  MovOpcodeRule 0x45#8 .movBL 0b000#3 0b101#3 false
    (fun s => { s with b := s.l })
    { movPreset with b := 0x34#8, cyc := 5#64 } ∧
  MovOpcodeRule 0x46#8 .movBM 0b000#3 0b110#3 true
    (fun s => { s with b := memRead (s.h ++ s.l) s })
    { movPreset with b := 0x5A#8, cyc := 7#64 } ∧
  MovOpcodeRule 0x47#8 .movBA 0b000#3 0b111#3 false
    (fun s => { s with b := s.a })
    { movPreset with b := 0xA1#8, cyc := 5#64 }

/-- 41_mov.md R138 to R145: every MOV into C. -/
def Obligations.MovIntoCFollowsItsRules : Prop :=
  MovOpcodeRule 0x48#8 .movCB 0b001#3 0b000#3 false
    (fun s => { s with c := s.b })
    { movPreset with c := 0xB2#8, cyc := 5#64 } ∧
  MovOpcodeRule 0x49#8 .movCC 0b001#3 0b001#3 false
    (fun s => { s with c := s.c })
    { movPreset with cyc := 5#64 } ∧
  MovOpcodeRule 0x4A#8 .movCD 0b001#3 0b010#3 false
    (fun s => { s with c := s.d })
    { movPreset with c := 0xD4#8, cyc := 5#64 } ∧
  MovOpcodeRule 0x4B#8 .movCE 0b001#3 0b011#3 false
    (fun s => { s with c := s.e })
    { movPreset with c := 0xE5#8, cyc := 5#64 } ∧
  MovOpcodeRule 0x4C#8 .movCH 0b001#3 0b100#3 false
    (fun s => { s with c := s.h })
    { movPreset with c := 0x12#8, cyc := 5#64 } ∧
  MovOpcodeRule 0x4D#8 .movCL 0b001#3 0b101#3 false
    (fun s => { s with c := s.l })
    { movPreset with c := 0x34#8, cyc := 5#64 } ∧
  MovOpcodeRule 0x4E#8 .movCM 0b001#3 0b110#3 true
    (fun s => { s with c := memRead (s.h ++ s.l) s })
    { movPreset with c := 0x5A#8, cyc := 7#64 } ∧
  MovOpcodeRule 0x4F#8 .movCA 0b001#3 0b111#3 false
    (fun s => { s with c := s.a })
    { movPreset with c := 0xA1#8, cyc := 5#64 }

/-- 41_mov.md R146 to R153: every MOV into D. -/
def Obligations.MovIntoDFollowsItsRules : Prop :=
  MovOpcodeRule 0x50#8 .movDB 0b010#3 0b000#3 false
    (fun s => { s with d := s.b })
    { movPreset with d := 0xB2#8, cyc := 5#64 } ∧
  MovOpcodeRule 0x51#8 .movDC 0b010#3 0b001#3 false
    (fun s => { s with d := s.c })
    { movPreset with d := 0xC3#8, cyc := 5#64 } ∧
  MovOpcodeRule 0x52#8 .movDD 0b010#3 0b010#3 false
    (fun s => { s with d := s.d })
    { movPreset with cyc := 5#64 } ∧
  MovOpcodeRule 0x53#8 .movDE 0b010#3 0b011#3 false
    (fun s => { s with d := s.e })
    { movPreset with d := 0xE5#8, cyc := 5#64 } ∧
  MovOpcodeRule 0x54#8 .movDH 0b010#3 0b100#3 false
    (fun s => { s with d := s.h })
    { movPreset with d := 0x12#8, cyc := 5#64 } ∧
  MovOpcodeRule 0x55#8 .movDL 0b010#3 0b101#3 false
    (fun s => { s with d := s.l })
    { movPreset with d := 0x34#8, cyc := 5#64 } ∧
  MovOpcodeRule 0x56#8 .movDM 0b010#3 0b110#3 true
    (fun s => { s with d := memRead (s.h ++ s.l) s })
    { movPreset with d := 0x5A#8, cyc := 7#64 } ∧
  MovOpcodeRule 0x57#8 .movDA 0b010#3 0b111#3 false
    (fun s => { s with d := s.a })
    { movPreset with d := 0xA1#8, cyc := 5#64 }

/-- 41_mov.md R154 to R161: every MOV into E. -/
def Obligations.MovIntoEFollowsItsRules : Prop :=
  MovOpcodeRule 0x58#8 .movEB 0b011#3 0b000#3 false
    (fun s => { s with e := s.b })
    { movPreset with e := 0xB2#8, cyc := 5#64 } ∧
  MovOpcodeRule 0x59#8 .movEC 0b011#3 0b001#3 false
    (fun s => { s with e := s.c })
    { movPreset with e := 0xC3#8, cyc := 5#64 } ∧
  MovOpcodeRule 0x5A#8 .movED 0b011#3 0b010#3 false
    (fun s => { s with e := s.d })
    { movPreset with e := 0xD4#8, cyc := 5#64 } ∧
  MovOpcodeRule 0x5B#8 .movEE 0b011#3 0b011#3 false
    (fun s => { s with e := s.e })
    { movPreset with cyc := 5#64 } ∧
  MovOpcodeRule 0x5C#8 .movEH 0b011#3 0b100#3 false
    (fun s => { s with e := s.h })
    { movPreset with e := 0x12#8, cyc := 5#64 } ∧
  MovOpcodeRule 0x5D#8 .movEL 0b011#3 0b101#3 false
    (fun s => { s with e := s.l })
    { movPreset with e := 0x34#8, cyc := 5#64 } ∧
  MovOpcodeRule 0x5E#8 .movEM 0b011#3 0b110#3 true
    (fun s => { s with e := memRead (s.h ++ s.l) s })
    { movPreset with e := 0x5A#8, cyc := 7#64 } ∧
  MovOpcodeRule 0x5F#8 .movEA 0b011#3 0b111#3 false
    (fun s => { s with e := s.a })
    { movPreset with e := 0xA1#8, cyc := 5#64 }

/-- 41_mov.md R162 to R169: every MOV into H. -/
def Obligations.MovIntoHFollowsItsRules : Prop :=
  MovOpcodeRule 0x60#8 .movHB 0b100#3 0b000#3 false
    (fun s => { s with h := s.b })
    { movPreset with h := 0xB2#8, cyc := 5#64 } ∧
  MovOpcodeRule 0x61#8 .movHC 0b100#3 0b001#3 false
    (fun s => { s with h := s.c })
    { movPreset with h := 0xC3#8, cyc := 5#64 } ∧
  MovOpcodeRule 0x62#8 .movHD 0b100#3 0b010#3 false
    (fun s => { s with h := s.d })
    { movPreset with h := 0xD4#8, cyc := 5#64 } ∧
  MovOpcodeRule 0x63#8 .movHE 0b100#3 0b011#3 false
    (fun s => { s with h := s.e })
    { movPreset with h := 0xE5#8, cyc := 5#64 } ∧
  MovOpcodeRule 0x64#8 .movHH 0b100#3 0b100#3 false
    (fun s => { s with h := s.h })
    { movPreset with cyc := 5#64 } ∧
  MovOpcodeRule 0x65#8 .movHL 0b100#3 0b101#3 false
    (fun s => { s with h := s.l })
    { movPreset with h := 0x34#8, cyc := 5#64 } ∧
  MovOpcodeRule 0x66#8 .movHM 0b100#3 0b110#3 true
    (fun s => { s with h := memRead (s.h ++ s.l) s })
    { movPreset with h := 0x5A#8, cyc := 7#64 } ∧
  MovOpcodeRule 0x67#8 .movHA 0b100#3 0b111#3 false
    (fun s => { s with h := s.a })
    { movPreset with h := 0xA1#8, cyc := 5#64 }

/-- 41_mov.md R170 to R177: every MOV into L. -/
def Obligations.MovIntoLFollowsItsRules : Prop :=
  MovOpcodeRule 0x68#8 .movLB 0b101#3 0b000#3 false
    (fun s => { s with l := s.b })
    { movPreset with l := 0xB2#8, cyc := 5#64 } ∧
  MovOpcodeRule 0x69#8 .movLC 0b101#3 0b001#3 false
    (fun s => { s with l := s.c })
    { movPreset with l := 0xC3#8, cyc := 5#64 } ∧
  MovOpcodeRule 0x6A#8 .movLD 0b101#3 0b010#3 false
    (fun s => { s with l := s.d })
    { movPreset with l := 0xD4#8, cyc := 5#64 } ∧
  MovOpcodeRule 0x6B#8 .movLE 0b101#3 0b011#3 false
    (fun s => { s with l := s.e })
    { movPreset with l := 0xE5#8, cyc := 5#64 } ∧
  MovOpcodeRule 0x6C#8 .movLH 0b101#3 0b100#3 false
    (fun s => { s with l := s.h })
    { movPreset with l := 0x12#8, cyc := 5#64 } ∧
  MovOpcodeRule 0x6D#8 .movLL 0b101#3 0b101#3 false
    (fun s => { s with l := s.l })
    { movPreset with cyc := 5#64 } ∧
  MovOpcodeRule 0x6E#8 .movLM 0b101#3 0b110#3 true
    (fun s => { s with l := memRead (s.h ++ s.l) s })
    { movPreset with l := 0x5A#8, cyc := 7#64 } ∧
  MovOpcodeRule 0x6F#8 .movLA 0b101#3 0b111#3 false
    (fun s => { s with l := s.a })
    { movPreset with l := 0xA1#8, cyc := 5#64 }

/-- 41_mov.md R178 to R184: every MOV into memory. -/
def Obligations.MovIntoMemoryFollowsItsRules : Prop :=
  MovOpcodeRule 0x70#8 .movMB 0b110#3 0b000#3 true
    (fun s => memWrite (s.h ++ s.l) s.b s)
    { movPreset with mem := [(0x1234, 0xB2#8)], cyc := 7#64 } ∧
  MovOpcodeRule 0x71#8 .movMC 0b110#3 0b001#3 true
    (fun s => memWrite (s.h ++ s.l) s.c s)
    { movPreset with mem := [(0x1234, 0xC3#8)], cyc := 7#64 } ∧
  MovOpcodeRule 0x72#8 .movMD 0b110#3 0b010#3 true
    (fun s => memWrite (s.h ++ s.l) s.d s)
    { movPreset with mem := [(0x1234, 0xD4#8)], cyc := 7#64 } ∧
  MovOpcodeRule 0x73#8 .movME 0b110#3 0b011#3 true
    (fun s => memWrite (s.h ++ s.l) s.e s)
    { movPreset with mem := [(0x1234, 0xE5#8)], cyc := 7#64 } ∧
  MovOpcodeRule 0x74#8 .movMH 0b110#3 0b100#3 true
    (fun s => memWrite (s.h ++ s.l) s.h s)
    { movPreset with mem := [(0x1234, 0x12#8)], cyc := 7#64 } ∧
  MovOpcodeRule 0x75#8 .movML 0b110#3 0b101#3 true
    (fun s => memWrite (s.h ++ s.l) s.l s)
    { movPreset with mem := [(0x1234, 0x34#8)], cyc := 7#64 } ∧
  MovOpcodeRule 0x77#8 .movMA 0b110#3 0b111#3 true
    (fun s => memWrite (s.h ++ s.l) s.a s)
    { movPreset with mem := [(0x1234, 0xA1#8)], cyc := 7#64 }

/-- 41_mov.md R185 to R192: every MOV into A. -/
def Obligations.MovIntoAFollowsItsRules : Prop :=
  MovOpcodeRule 0x78#8 .movAB 0b111#3 0b000#3 false
    (fun s => { s with a := s.b })
    { movPreset with a := 0xB2#8, cyc := 5#64 } ∧
  MovOpcodeRule 0x79#8 .movAC 0b111#3 0b001#3 false
    (fun s => { s with a := s.c })
    { movPreset with a := 0xC3#8, cyc := 5#64 } ∧
  MovOpcodeRule 0x7A#8 .movAD 0b111#3 0b010#3 false
    (fun s => { s with a := s.d })
    { movPreset with a := 0xD4#8, cyc := 5#64 } ∧
  MovOpcodeRule 0x7B#8 .movAE 0b111#3 0b011#3 false
    (fun s => { s with a := s.e })
    { movPreset with a := 0xE5#8, cyc := 5#64 } ∧
  MovOpcodeRule 0x7C#8 .movAH 0b111#3 0b100#3 false
    (fun s => { s with a := s.h })
    { movPreset with a := 0x12#8, cyc := 5#64 } ∧
  MovOpcodeRule 0x7D#8 .movAL 0b111#3 0b101#3 false
    (fun s => { s with a := s.l })
    { movPreset with a := 0x34#8, cyc := 5#64 } ∧
  MovOpcodeRule 0x7E#8 .movAM 0b111#3 0b110#3 true
    (fun s => { s with a := memRead (s.h ++ s.l) s })
    { movPreset with a := 0x5A#8, cyc := 7#64 } ∧
  MovOpcodeRule 0x7F#8 .movAA 0b111#3 0b111#3 false
    (fun s => { s with a := s.a })
    { movPreset with cyc := 5#64 }

/-- 41_mov.md R121. -/
def Obligations.RegisterToRegisterMovForm : Prop :=
  (∀ (k : Costs) (sel : Sel) (dst src : Reg) (s : State), sel ≠ .lxi → Ready k.movBase s →
    ∃ t, executeWith k sel (movWord (regCode dst) (regCode src)) s = .next t ∧
      readReg dst t = readReg src s ∧ (∀ r, r ≠ dst → readReg r t = readReg r s) ∧
      t.f = s.f ∧ t.pc = s.pc ∧ t.sp = s.sp ∧ t.mem = s.mem ∧ t.fault = none ∧
      t.cyc.toNat = s.cyc.toNat + k.movBase ∧ (dst = src → t = { s with cyc := t.cyc })) ∧
  executeWith costs .mov 0x78#8 movPreset = .next { movPreset with a := 0xB2#8, cyc := 5#64 }

/-- 41_mov.md R122. -/
def Obligations.MemoryToRegisterMovForm : Prop :=
  (∀ (k : Costs) (sel : Sel) (dst : Reg) (s : State), sel ≠ .lxi → Ready (k.movBase + k.movMemSurcharge) s →
    ∃ t, executeWith k sel (movWord (regCode dst) memCode) s = .next t ∧
      readReg dst t = memRead (s.h ++ s.l) s ∧ (∀ r, r ≠ dst → readReg r t = readReg r s) ∧
      t.f = s.f ∧ t.pc = s.pc ∧ t.sp = s.sp ∧ t.mem = s.mem ∧ t.fault = none ∧
      t.cyc.toNat = s.cyc.toNat + (k.movBase + k.movMemSurcharge)) ∧
  executeWith costs .mov 0x46#8 movPreset = .next { movPreset with b := 0x5A#8, cyc := 7#64 }

/-- 41_mov.md R123. -/
def Obligations.RegisterToMemoryMovForm : Prop :=
  (∀ (k : Costs) (sel : Sel) (src : Reg) (s : State), sel ≠ .lxi → Ready (k.movBase + k.movMemSurcharge) s →
    ∃ t, executeWith k sel (movWord memCode (regCode src)) s = .next t ∧
      (∀ x, memRead x t = if x = s.h ++ s.l then readReg src s else memRead x s) ∧
      (∀ r, readReg r t = readReg r s) ∧ t.f = s.f ∧ t.pc = s.pc ∧ t.sp = s.sp ∧ t.fault = none ∧
      t.cyc.toNat = s.cyc.toNat + (k.movBase + k.movMemSurcharge) ∧
      (s.pc = s.h ++ s.l → fetchOpcode t = readReg src s)) ∧
  executeWith costs .mov 0x77#8 movPreset =
    .next { movPreset with mem := [(0x1234, 0xA1#8)], cyc := 7#64 }

/-- 42_lxi.md R201. -/
def Obligations.LxiBcLoadsTheOperandBytes : Prop :=
  LxiOpcodeRule 0x01#8 .lxiB 0b00#2
    (fun s => { s with c := memRead s.pc s, b := memRead (s.pc + 1#16) s, pc := s.pc + 2#16 })
    { lxiPreset with c := 0xAB#8, b := 0xCD#8, pc := 0xCB00#16, cyc := 10#64 }

/-- 42_lxi.md R202. -/
def Obligations.LxiDeLoadsTheOperandBytes : Prop :=
  LxiOpcodeRule 0x11#8 .lxiD 0b01#2
    (fun s => { s with e := memRead s.pc s, d := memRead (s.pc + 1#16) s, pc := s.pc + 2#16 })
    { lxiPreset with e := 0xAB#8, d := 0xCD#8, pc := 0xCB00#16, cyc := 10#64 }

/-- 42_lxi.md R203. -/
def Obligations.LxiHlLoadsTheOperandBytes : Prop :=
  LxiOpcodeRule 0x21#8 .lxiH 0b10#2
    (fun s => { s with l := memRead s.pc s, h := memRead (s.pc + 1#16) s, pc := s.pc + 2#16 })
    { lxiPreset with l := 0xAB#8, h := 0xCD#8, pc := 0xCB00#16, cyc := 10#64 }

/-- 42_lxi.md R204. -/
def Obligations.LxiSpLoadsTheOperandWord : Prop :=
  LxiOpcodeRule 0x31#8 .lxiSP 0b11#2
    (fun s => { s with sp := memRead (s.pc + 1#16) s ++ memRead s.pc s, pc := s.pc + 2#16 })
    { lxiPreset with sp := 0xCDAB#16, pc := 0xCB00#16, cyc := 10#64 }

/-- 42_lxi.md section 1 (R200), with its corner cases at 0xFFFF and 0xFFFE; the wrap is the spec's choice D5
(log entry 6). -/
def Obligations.EveryLxiConsumesTwoOperandBytes : Prop :=
  ∀ (k : Costs) (sel : Sel) (rp : Rp) (s : State), sel ≠ .mov → Ready k.lxi s →
    (∀ imm, (encode ⟨lxiInstr rp, some imm⟩).length = 3) ∧
    ∃ t, executeWith k sel (lxiWord (rpCode rp)) s = .next t ∧
      t.pc = s.pc + 2#16 ∧ t.mem = s.mem ∧ t.f = s.f ∧ t.fault = none ∧
      t.cyc.toNat = s.cyc.toNat + k.lxi ∧
      targetValue rp t = memRead (s.pc + 1#16) s ++ memRead s.pc s ∧
      (rp ≠ .sp → t.sp = s.sp) ∧ (∀ r, r ∉ targetRegs rp → readReg r t = readReg r s) ∧
      (s.pc = 0xFFFF#16 → targetValue rp t = memRead 0x0000#16 s ++ memRead 0xFFFF#16 s ∧ t.pc = 0x0001#16) ∧
      (s.pc = 0xFFFE#16 → targetValue rp t = memRead 0xFFFF#16 s ++ memRead 0xFFFE#16 s ∧ t.pc = 0x0000#16)

/-- The frame of movBB to movEA, movHB to movLA and movAB to movAA: every MOV whose destination is a register
(41_mov.md R120 to R122). -/
def Obligations.MovIntoRegisterFrame : Prop :=
  ∀ (i : Instr) (dst : Reg) (s t : State),
    (i.decoded = .movRegMem dst ∨ ∃ src, i.decoded = .movRegReg dst src) → exec i s = .next t →
      (∀ r, r ≠ dst → readReg r t = readReg r s) ∧ t.f = s.f ∧ t.pc = s.pc ∧ t.sp = s.sp ∧
      t.fault = s.fault ∧ (∀ x, memRead x t = memRead x s) ∧
      t.cyc.toNat = s.cyc.toNat + (if i.decoded = .movRegMem dst then 7 else 5)

/-- The frame of movMB, movMC, movMD, movME, movMH, movML and movMA (41_mov.md R123). -/
def Obligations.MovIntoMemoryFrame : Prop :=
  ∀ (i : Instr) (src : Reg) (s t : State), i.decoded = .movMemReg src → exec i s = .next t →
    (∀ r, readReg r t = readReg r s) ∧ t.f = s.f ∧ t.pc = s.pc ∧ t.sp = s.sp ∧ t.fault = s.fault ∧
    memRead (hlAddr s) t = readReg src s ∧ (∀ x, x ≠ hlAddr s → memRead x t = memRead x s) ∧
    t.cyc.toNat = s.cyc.toNat + 7

/-- The frame of lxiB, lxiD, lxiH and lxiSP (42_lxi.md R200 to R204). -/
def Obligations.LxiFrame : Prop :=
  ∀ (i : Instr) (rp : Rp) (s t : State), i.decoded = .lxi rp → exec i s = .next t →
    (∀ r, r ∉ targetRegs rp → readReg r t = readReg r s) ∧ (rp ≠ .sp → t.sp = s.sp) ∧ t.f = s.f ∧
    t.fault = s.fault ∧ (∀ x, memRead x t = memRead x s) ∧ t.cyc.toNat = s.cyc.toNat + 10

/-- 60_exceptions.md R220, 40_dispatch.md R103 and R104. -/
def Obligations.ErrorOutcomeExactlyOnRejectedOpcodes : Prop :=
  ∀ (k : Costs) (sel : Sel) (op : Byte) (s : State), s.fault = none →
    (((isMovOpcode op = false ∧ isLxiOpcode op = false) ∨ (sel = .mov ∧ isLxiOpcode op = true) ∨
        (sel = .lxi ∧ isMovOpcode op = true)) →
      executeWith k sel op s = .next { s with fault := some ⟨0x01#8, op, s.pc, sel⟩ } ∧
      replyWith k sel op s = some (.err op s.pc)) ∧
    (¬ ((isMovOpcode op = false ∧ isLxiOpcode op = false) ∨ (sel = .mov ∧ isLxiOpcode op = true) ∨
        (sel = .lxi ∧ isMovOpcode op = true)) →
      ∀ t, executeWith k sel op s = .next t → t.fault = none ∧ replyWith k sel op s = some .ok)

/-- 60_exceptions.md R223. -/
def Obligations.TestsAreTakenInOrder : Prop :=
  ∀ (k : Costs) (sel : Sel) (op : Byte) (s : State),
    (s.fault.isSome = true → executeWith k sel op s = .fault .faultLatched) ∧
    (s.fault = none → rejected sel op = true →
      executeWith k sel op s = .next { s with fault := some (recordOf sel op s) }) ∧
    (s.fault = none → rejected sel op = false → 2 ^ 64 - 1 < s.cyc.toNat + opcodeCost k op →
      executeWith k sel op s = .fault .cycLimit) ∧
    (s.fault = none → rejected sel op = false → s.cyc.toNat + opcodeCost k op ≤ 2 ^ 64 - 1 →
      ∃ t, executeWith k sel op s = .next t ∧ t.fault = none)

/-- 40_dispatch.md R102. -/
def Obligations.FaultedBlockHasNoStep : Prop :=
  ∀ s : State, s.fault.isSome = true →
    (∀ k sel op, executeWith k sel op s = .fault .faultLatched ∧ replyWith k sel op s = none) ∧
    (∀ i, exec i s = .fault .faultLatched) ∧ step s = .fault .faultLatched

/-- 40_dispatch.md R106 and R107, and the parameters and defaults of 00_scope.md R5. The defaults 5 and 2 are
UNVERIFIED and 10 is PRESUMED; that `exec` runs with them is the model's choice (log entry 2). -/
def Obligations.CycSumIsExactOrThereIsNoStep : Prop :=
  (∀ (k : Costs) (sel : Sel) (op : Byte) (s : State), s.fault = none → rejected sel op = false →
    (s.cyc.toNat + opcodeCost k op ≤ 2 ^ 64 - 1 →
      ∃ t, executeWith k sel op s = .next t ∧ t.cyc.toNat = s.cyc.toNat + opcodeCost k op) ∧
    (2 ^ 64 - 1 < s.cyc.toNat + opcodeCost k op → executeWith k sel op s = .fault .cycLimit)) ∧
  (∀ (op : Byte) (s : State), s.fault = none → rejected .any op = false →
    (s.cyc.toNat + opcodeCost costs op ≤ 2 ^ 64 - 1 →
      ∃ t, exec (decodeOp op) s = .next t ∧ t.cyc.toNat = s.cyc.toNat + opcodeCost costs op) ∧
    (2 ^ 64 - 1 < s.cyc.toNat + opcodeCost costs op → exec (decodeOp op) s = .fault .cycLimit)) ∧
  (∀ (k : Costs) (d : Decoded), costOf k d = match d with
    | .movRegReg _ _ => k.movBase
    | .movRegMem _ => k.movBase + k.movMemSurcharge
    | .movMemReg _ => k.movBase + k.movMemSurcharge
    | .lxi _ => k.lxi
    | .invalid => 0) ∧
  costs = ⟨5, 2, 10⟩

/-- 30_encoding.md R90. -/
def Obligations.ReservedOpcodeIsInvalid : Prop :=
  decodeFields 0b01110110#8 = .invalid ∧ decodeOp 0x76#8 = .reservedMovMM ∧
  (∀ (k : Costs) (sel : Sel) (s : State), s.fault = none →
    executeWith k sel 0x76#8 s = .next { s with fault := some ⟨0x01#8, 0x76#8, s.pc, sel⟩ }) ∧
  (∀ s : State, s.fault = none →
    exec .reservedMovMM s = .next { s with fault := some ⟨0x01#8, 0x76#8, s.pc, .any⟩ })

/-- 30_encoding.md R91; the completion of the row for the other 188 INVALID values is its error outcome. -/
def Obligations.OtherInvalidOpcodesTakeTheError : Prop :=
  (List.range 256).countP (fun n =>
    !isMovOpcode (BitVec.ofNat 8 n) && !isLxiOpcode (BitVec.ofNat 8 n)) = 189 ∧
  (∀ op : Byte, isMovOpcode op = false → isLxiOpcode op = false →
    decodeFields op = .invalid ∧
    (∀ (k : Costs) (sel : Sel) (s : State), s.fault = none →
      executeWith k sel op s = .next { s with fault := some ⟨0x01#8, op, s.pc, sel⟩ }) ∧
    (op ≠ 0x76#8 → decodeOp op = .invalid op ∧ ∀ s : State, s.fault = none →
      exec (.invalid op) s = .next { s with fault := some ⟨0x01#8, op, s.pc, .any⟩ }))

/-- 20_memory.md R53. -/
def Obligations.StoreThenReadGivesTheStoredByte : Prop :=
  ∀ (s : State) (x : Word16) (v : Byte),
    memRead x (memWrite x v s) = v ∧ (∀ y, y ≠ x → memRead y (memWrite x v s) = memRead y s) ∧
    { memWrite x v s with mem := s.mem } = s

/-- The list form of memory is faithful (the model's own representation, log entry 10). -/
def Obligations.EqualReadsMeanEqualMemory : Prop :=
  ∀ m n : Memory, Memory.wf m → Memory.wf n →
    (∀ x : Word16, Memory.read m x.toNat = Memory.read n x.toNat) → m = n

/-- 10_state.md R30 and 00_scope.md R6; the wrap is the spec's choice D5 (log entry 6). -/
def Obligations.AddressPointerPrimitives : Prop :=
  ∀ (p : Pointer) (v : Byte) (s : State),
    ptrLoad p s = memRead (ptrValue p s) s ∧ ptrLoad p (ptrStore p v s) = v ∧
    (∀ x, x ≠ ptrValue p s → memRead x (ptrStore p v s) = memRead x s) ∧
    (∀ q, ptrValue q (ptrStore p v s) = ptrValue q s) ∧
    (∀ q, ptrValue q (ptrIncrement p s) = if q = p then ptrValue p s + 1#16 else ptrValue q s) ∧
    (ptrValue p s = 0xFFFF#16 → ptrValue p (ptrIncrement p s) = 0x0000#16) ∧
    (ptrIncrement p s).mem = s.mem ∧ (∀ r, readReg r (ptrIncrement p s) = readReg r s)

/-- 10_state.md R24. -/
def Obligations.PairIsAViewOfTwoRegisters : Prop :=
  (∀ s : State, pair .b .c s = (s.b.setWidth 16 <<< 8) ||| s.c.setWidth 16 ∧
    pair .d .e s = (s.d.setWidth 16 <<< 8) ||| s.e.setWidth 16 ∧
    pair .h .l s = (s.h.setWidth 16 <<< 8) ||| s.l.setWidth 16 ∧ hlAddr s = pair .h .l s) ∧
  (∀ (hi lo r : Reg) (v : Byte) (s : State), pair hi lo (writeReg r v s) =
    (if hi = r then v else readReg hi s) ++ (if lo = r then v else readReg lo s))

/-- The step around `exec` (40_dispatch.md R111): PC moves past the opcode byte, nothing else is added. -/
def Obligations.StepRunsTheDecodedInstruction : Prop :=
  ∀ s : State, step s = exec (decodeOp (memRead s.pc s)) { s with pc := s.pc + 1#16 } ∧
    ∀ (f : FullInstr) (rest : List Byte),
      decodeBytes [memRead s.pc s, memRead (s.pc + 1#16) s, memRead (s.pc + 2#16) s] = .ok (f, rest) →
        step s = exec f.instr { s with pc := s.pc + 1#16 }

/-- 40_dispatch.md R111. -/
def Obligations.DriverStepIsFetchIncrementExecute : Prop :=
  (∀ (k : Costs) (s : State),
    driverStepWith k s = executeWith k .any (memRead s.pc s) { s with pc := s.pc + 1#16 } ∧
    (s.fault = none → rejected .any (memRead s.pc s) = true →
      driverStepWith k s = .next { s with
        pc := s.pc + 1#16, fault := some ⟨0x01#8, memRead s.pc s, s.pc + 1#16, .any⟩ }) ∧
    (∀ r, executeWith k .any (memRead s.pc s) { s with pc := s.pc + 1#16 } = .fault r →
      driverStepWith k s = .fault r) ∧
    (∀ t, driverStepWith k s = .next t → t.cyc.toNat =
      s.cyc.toNat + if rejected .any (memRead s.pc s) then 0 else opcodeCost k (memRead s.pc s))) ∧
  (∀ s : State, step s = driverStepWith costs s)

/-- The invariant is kept by every step. -/
def Obligations.StepKeepsTheInvariant : Prop :=
  ∀ s t : State, s.Inv → step s = .next t → t.Inv

/-- The invariant holds after construction. -/
def Obligations.ResetMeetsTheInvariant : Prop := State.reset.Inv

/-- The invariant is kept by every transaction and every host write. -/
def Obligations.TransactionsAndHostWritesKeepTheInvariant : Prop :=
  ∀ s : State, s.Inv →
    (∀ k sel op t, executeWith k sel op s = .next t → t.Inv) ∧ (∀ w, (portWrite w s).Inv)

/-- 40_dispatch.md R113 (10_state.md R26). -/
def Obligations.NothingReadsOrWritesF : Prop :=
  (∀ (k : Costs) (sel : Sel) (op : Byte) (s : State) (v : Byte),
    executeWith k sel op (writeF v s) = mapNext (writeF v) (executeWith k sel op s) ∧
    ∀ t, executeWith k sel op s = .next t → t.f = s.f) ∧
  (∀ (i : Instr) (s : State) (v : Byte), exec i (writeF v s) = mapNext (writeF v) (exec i s) ∧
    ∀ t, exec i s = .next t → t.f = s.f)

/-- 10_state.md R29. -/
def Obligations.OnlyLxiSpWritesSp : Prop :=
  (∀ s t : State, step s = .next t → t.sp ≠ s.sp → memRead s.pc s = 0x31#8) ∧
  (∀ (s : State) (v : Word16), memRead s.pc s ≠ 0x31#8 →
    step (ptrSet .sp v s) = mapNext (ptrSet .sp v) (step s))

/-- 20_memory.md R52: the only writes are those of MOV M,r at HL. -/
def Obligations.MemoryChangesOnlyAtHlByAStore : Prop :=
  ∀ (s t : State) (x : Word16), step s = .next t → memRead x t ≠ memRead x s →
    isStoreOpcode (memRead s.pc s) = true ∧ x = s.h ++ s.l ∧
    memRead x t = readReg (refReg ((memRead s.pc s).extractLsb' 0 3)) s

/-- The writes column of 10_state.md R23. -/
def Obligations.RegisterChangesOnlyAsADestination : Prop :=
  ∀ (s t : State) (r : Reg), step s = .next t → readReg r t ≠ readReg r s →
    (isMovOpcode (memRead s.pc s) = true ∧ (memRead s.pc s).extractLsb' 3 3 = regCode r) ∨
    (∃ rp, memRead s.pc s = lxiWord (rpCode rp) ∧ r ∈ targetRegs rp)

/-- 40_dispatch.md R108. -/
def Obligations.PcMovesOnlyByOperandBytes : Prop :=
  (∀ (k : Costs) (sel : Sel) (op : Byte) (s t : State), executeWith k sel op s = .next t →
    t.pc = if isLxiOpcode op = true ∧ sel ≠ .mov then s.pc + 2#16 else s.pc) ∧
  (∀ s t : State, step s = .next t →
    t.pc = if isLxiOpcode (memRead s.pc s) = true then s.pc + 3#16 else s.pc + 1#16)

/-- 10_state.md R31. -/
def Obligations.CycCountsCommittedCostsOnly : Prop :=
  State.reset.cyc = 0#64 ∧
  (∀ (k : Costs) (sel : Sel) (op : Byte) (s t : State), executeWith k sel op s = .next t →
    (t.fault = none → t.cyc.toNat = s.cyc.toNat + opcodeCost k op) ∧
    (t.fault.isSome = true → t.cyc = s.cyc)) ∧
  (∀ s t : State, step s = .next t → s.cyc.toNat ≤ t.cyc.toNat) ∧
  (∀ (w : PortWrite) (s : State), (portWrite w s).cyc = s.cyc) ∧
  (∀ s : State, portRead .cyc s = .u64 s.cyc)

/-- 60_exceptions.md R225. -/
def Obligations.OnlyConstructionClearsFault : Prop :=
  (∀ (k : Costs) (sel : Sel) (op : Byte) (s t : State), executeWith k sel op s = .next t → s.fault = none) ∧
  (∀ (i : Instr) (s t : State), exec i s = .next t → s.fault = none) ∧
  (∀ s t : State, step s = .next t → s.fault = none) ∧
  (∀ (w : PortWrite) (s : State), (portWrite w s).fault = s.fault) ∧ State.reset.fault = none

/-- 20_memory.md R66: the next fetch and the next operand read see the store. -/
def Obligations.StoreIsSeenByTheNextFetch : Prop :=
  (∀ (s t : State) (src : Reg), memRead s.pc s = movWord memCode (regCode src) →
    s.h ++ s.l = s.pc + 1#16 → step s = .next t →
      step t = exec (decodeOp (readReg src s)) { t with pc := t.pc + 1#16 }) ∧
  (∀ (s t u : State) (src : Reg), memRead s.pc s = movWord memCode (regCode src) →
    memRead (s.pc + 1#16) s = 0x31#8 → s.h ++ s.l = s.pc + 2#16 → step s = .next t → step t = .next u →
      u.sp = memRead (s.pc + 3#16) s ++ readReg src s)

/-- 10_state.md R35. -/
def Obligations.ResetValues : Prop :=
  (∀ r, readReg r State.reset = 0x00#8) ∧ State.reset.f = 0x00#8 ∧ State.reset.pc = 0x0000#16 ∧
  State.reset.sp = 0x0000#16 ∧ (∀ x : Word16, memRead x State.reset = 0x00#8) ∧
  State.reset.cyc = 0#64 ∧ State.reset.fault = none

/-- 60_exceptions.md R233. -/
def Obligations.HostWriteSetsOneElement : Prop :=
  ∀ (w : PortWrite) (e : Element) (s : State),
    portRead e (portWrite w s) = (if e = writtenElement w then writtenValue w else portRead e s) ∧
    writtenElement w ≠ .cyc ∧ writtenElement w ≠ .fault

/-- The model refines the reference block of Sys2Proof/Safety.lean, over every state. -/
def Obligations.BlockRefinesTheReference : Prop :=
  (∀ (k : Costs) (sel : Sel) (op : Byte) (s : State),
    refOutcome (executeWith k sel op s) = refExecute k sel op s.ref) ∧
  (∀ (k : Costs) (s : State), refOutcome (driverStepWith k s) = refDriverStep k s.ref) ∧
  (∀ s : State, refOutcome (step s) = refDriverStep costs s.ref)

/-- 40_dispatch.md R101. That `exec` is the ANY entry point is the model's choice (log entry 1). -/
def Obligations.ExecIsTheUnifiedDispatcher : Prop :=
  (∀ (op : Byte) (s : State), exec (decodeOp op) s = executeWith costs .any op s) ∧
  (∀ (k : Costs) (op : Byte) (s : State), isMovOpcode op = true →
    executeWith k .mov op s = executeWith k .any op s) ∧
  (∀ (k : Costs) (op : Byte) (s : State), isLxiOpcode op = true →
    executeWith k .lxi op s = executeWith k .any op s)

/-- 30_encoding.md R87 through a fetch. -/
def Obligations.LxiStepLoadsItsEncodedImmediate : Prop :=
  ∀ (rp : Rp) (imm : Word16) (s : State), Ready 10 s →
    [memRead s.pc s, memRead (s.pc + 1#16) s, memRead (s.pc + 2#16) s] = encode ⟨lxiInstr rp, some imm⟩ →
    ∃ t, step s = .next t ∧ targetValue rp t = imm ∧ t.pc = s.pc + 3#16 ∧
      t.cyc.toNat = s.cyc.toNat + 10 ∧ t.mem = s.mem ∧ t.f = s.f ∧ t.fault = none

/-- The placing of a word stands for the host's loading of a program (70_reset_and_hazards.md R243; the model's
choice, log entry 9). -/
def Obligations.PlacedWordIsTheOneRun : Prop :=
  ∀ (s : State) (nbits w : Nat), ∃ i, decodeTableWord nbits w = some i ∧
    step (s.withFetchWord nbits w) = exec i { s.withFetchWord nbits w with pc := s.pc + 1#16 } ∧
    { s.withFetchWord nbits w with mem := s.mem } = s ∧
    ∀ x, x ≠ s.pc → x ≠ s.pc + 1#16 → x ≠ s.pc + 2#16 → memRead x (s.withFetchWord nbits w) = memRead x s

/-- 95_test_vectors.md section 4, F1 to F5, as the outcomes that refute them. The cycle counts rest on the default
costs 5, 2 and 10 (log entry 2). -/
def Obligations.FalseVariantsAreRefuted : Prop :=
  -- F1
  (decodeOp 0x77#8 = .movMA ∧ decodeOp 0x76#8 = .reservedMovMM ∧
    executeMov 0x77#8 movPreset = .next { movPreset with mem := [(0x1234, 0xA1#8)], cyc := 7#64 } ∧
    executeMov 0x76#8 movPreset =
      .next { movPreset with fault := some ⟨0x01#8, 0x76#8, 0x0100#16, .mov⟩ }) ∧
  -- F2 and F4
  (executeMov 0x46#8 movPreset = .next { movPreset with b := 0x5A#8, cyc := 7#64 } ∧
    executeMov 0x70#8 movPreset = .next { movPreset with mem := [(0x1234, 0xB2#8)], cyc := 7#64 } ∧
    executeMov 0x41#8 movPreset = .next { movPreset with b := 0xC3#8, cyc := 5#64 }) ∧
  -- F3
  executeLxi 0x01#8 lxiPreset =
    .next { lxiPreset with c := 0xAB#8, b := 0xCD#8, pc := 0xCB00#16, cyc := 10#64 } ∧
  -- F5
  ∀ sel : Sel, executeWith costs sel 0x00#8 { movPreset with cyc := 99#64 } =
    .next { movPreset with cyc := 99#64, fault := some ⟨0x01#8, 0x00#8, 0x0100#16, sel⟩ }

/-- The model's choice (log entry 8), no rule of the spec: what `exec` does with every term of the row for the other
INVALID values, which of these terms are well-formed, and that the decoder answers no ill-formed one. -/
def Obligations.InvalidTermsTakeTheErrorTheyCarry : Prop :=
  (∀ (op : Byte) (s : State), s.fault = none →
    exec (.invalid op) s = .next { s with fault := some ⟨0x01#8, op, s.pc, .any⟩ }) ∧
  (∀ op : Byte, (Instr.invalid op).wf = (!isMovOpcode op && !isLxiOpcode op && op != 0x76#8)) ∧
  ∀ op : Byte, (decodeOp op).wf = true

/-- 40_dispatch.md R112. What a run does from a start that is faulted already, or where the driver has no step, is the
model's choice (log entry 15) and stands in its own statement below. -/
def Obligations.RunEndsAfterItsStepsOrAtTheFirstError : Prop :=
  ∀ (k : Costs) (n : Nat) (s t : State),
    (runWith k n s = .committed t ↔ ∃ seq : Nat → State, seq 0 = s ∧ seq n = t ∧
      IsRun (driverStepWith k) n seq ∧ (∀ j, j < n → driverReplyWith k (seq j) = some .ok) ∧ t.fault = none) ∧
    (s.fault = none → (runWith k n s = .faulted t ↔ ∃ (m : Nat) (seq : Nat → State) (op : Byte) (pc : Word16),
      m < n ∧ seq 0 = s ∧ seq (m + 1) = t ∧ IsRun (driverStepWith k) (m + 1) seq ∧
      (∀ j, j < m → driverReplyWith k (seq j) = some .ok) ∧
      driverReplyWith k (seq m) = some (.err op pc) ∧ t.fault = some ⟨0x01#8, op, pc, .any⟩)) ∧
    (runWith k n s = .faulted t → t.faulted = true ∧ ∀ u, runWith k n s ≠ .committed u)

/-- The model's choice (log entry 15), no rule of the spec: the outcomes of a run that are neither end of
40_dispatch.md R112, and the host's runner. -/
def Obligations.RunsOutsideTheTwoEndsAreNamedApart : Prop :=
  (∀ (k : Costs) (n : Nat) (s t : State),
    (s.fault.isSome = true → runWith k n s = .faulted s) ∧
    (runWith k n s = .noStep t ↔ ∃ (m : Nat) (seq : Nat → State), m < n ∧ seq 0 = s ∧ seq m = t ∧
      IsRun (driverStepWith k) m seq ∧ (∀ j, j < m → driverReplyWith k (seq j) = some .ok) ∧
      driverStepWith k t = .fault .cycLimit)) ∧
  ∀ (n : Nat) (s t : State), run n s = runWith costs n s ∧
    (run n s = .committed t ↔ core.run n s = .next t ∧ t.fault = none)

/-- 40_dispatch.md R100 and R111: the reply tells a commit from the error outcome. -/
def Obligations.DriverStepCommitsOrRecordsTheError : Prop :=
  ∀ (k : Costs) (s : State),
    (∀ t, driverStepWith k s = .next t →
      (driverReplyWith k s = some .ok ∧ t.fault = none) ∨
      (driverReplyWith k s = some (.err (memRead s.pc s) (s.pc + 1#16)) ∧ t = { s with
        pc := s.pc + 1#16, fault := some ⟨0x01#8, memRead s.pc s, s.pc + 1#16, .any⟩ })) ∧
    ((∀ t, driverStepWith k s ≠ .next t) → driverReplyWith k s = none)

/-- The step invariant carried along runs. -/
def Obligations.RunKeepsTheInvariantAndF : Prop :=
  ∀ (k : Costs) (n : Nat) (s t : State), s.Inv →
    (runWith k n s = .committed t ∨ runWith k n s = .faulted t ∨ runWith k n s = .noStep t) →
    t.Inv ∧ t.f = s.f ∧ s.cyc.toNat ≤ t.cyc.toNat
end

