-- ==== Sys2Proof/Laws/State.lean ====
section
/-! SUPPORT. What each update of the state leaves in each field, so that no proof unfolds a record update. -/

namespace Sys2Proof.Machine

@[simp] theorem writeReg_f (r : Reg) (v : Byte) (s : State) : (writeReg r v s).f = s.f := by
  cases r <;> rfl

@[simp] theorem writeReg_pc (r : Reg) (v : Byte) (s : State) : (writeReg r v s).pc = s.pc := by
  cases r <;> rfl

@[simp] theorem writeReg_sp (r : Reg) (v : Byte) (s : State) : (writeReg r v s).sp = s.sp := by
  cases r <;> rfl

@[simp] theorem writeReg_mem (r : Reg) (v : Byte) (s : State) : (writeReg r v s).mem = s.mem := by
  cases r <;> rfl

@[simp] theorem writeReg_cyc (r : Reg) (v : Byte) (s : State) : (writeReg r v s).cyc = s.cyc := by
  cases r <;> rfl

@[simp] theorem writeReg_fault (r : Reg) (v : Byte) (s : State) : (writeReg r v s).fault = s.fault := by
  cases r <;> rfl

/-- Reading a register after writing one (10_state.md R21: no register is an alias of another). -/
@[simp] theorem readReg_writeReg (q r : Reg) (v : Byte) (s : State) :
    readReg q (writeReg r v s) = if q = r then v else readReg q s := by
  cases q <;> cases r <;> rfl

@[simp] theorem writeReg_self (r : Reg) (s : State) : writeReg r (readReg r s) s = s := by
  cases r <;> rfl

@[simp] theorem memWrite_a (x : Word16) (v : Byte) (s : State) : (memWrite x v s).a = s.a := rfl

@[simp] theorem memWrite_b (x : Word16) (v : Byte) (s : State) : (memWrite x v s).b = s.b := rfl

@[simp] theorem memWrite_c (x : Word16) (v : Byte) (s : State) : (memWrite x v s).c = s.c := rfl

@[simp] theorem memWrite_d (x : Word16) (v : Byte) (s : State) : (memWrite x v s).d = s.d := rfl

@[simp] theorem memWrite_e (x : Word16) (v : Byte) (s : State) : (memWrite x v s).e = s.e := rfl

@[simp] theorem memWrite_h (x : Word16) (v : Byte) (s : State) : (memWrite x v s).h = s.h := rfl

@[simp] theorem memWrite_l (x : Word16) (v : Byte) (s : State) : (memWrite x v s).l = s.l := rfl

@[simp] theorem memWrite_f (x : Word16) (v : Byte) (s : State) : (memWrite x v s).f = s.f := rfl

@[simp] theorem memWrite_pc (x : Word16) (v : Byte) (s : State) : (memWrite x v s).pc = s.pc := rfl

@[simp] theorem memWrite_sp (x : Word16) (v : Byte) (s : State) : (memWrite x v s).sp = s.sp := rfl

@[simp] theorem memWrite_cyc (x : Word16) (v : Byte) (s : State) : (memWrite x v s).cyc = s.cyc := rfl

@[simp] theorem memWrite_fault (x : Word16) (v : Byte) (s : State) : (memWrite x v s).fault = s.fault := rfl

@[simp] theorem memWrite_mem (x : Word16) (v : Byte) (s : State) :
    (memWrite x v s).mem = Memory.write s.mem x.toNat v := rfl

@[simp] theorem readReg_memWrite (r : Reg) (x : Word16) (v : Byte) (s : State) :
    readReg r (memWrite x v s) = readReg r s := by
  cases r <;> rfl

@[simp] theorem ptrSet_a (p : Pointer) (v : Word16) (s : State) : (ptrSet p v s).a = s.a := by
  cases p <;> rfl

@[simp] theorem ptrSet_b (p : Pointer) (v : Word16) (s : State) : (ptrSet p v s).b = s.b := by
  cases p <;> rfl

@[simp] theorem ptrSet_c (p : Pointer) (v : Word16) (s : State) : (ptrSet p v s).c = s.c := by
  cases p <;> rfl

@[simp] theorem ptrSet_d (p : Pointer) (v : Word16) (s : State) : (ptrSet p v s).d = s.d := by
  cases p <;> rfl

@[simp] theorem ptrSet_e (p : Pointer) (v : Word16) (s : State) : (ptrSet p v s).e = s.e := by
  cases p <;> rfl

@[simp] theorem ptrSet_h (p : Pointer) (v : Word16) (s : State) : (ptrSet p v s).h = s.h := by
  cases p <;> rfl

@[simp] theorem ptrSet_l (p : Pointer) (v : Word16) (s : State) : (ptrSet p v s).l = s.l := by
  cases p <;> rfl

@[simp] theorem ptrSet_f (p : Pointer) (v : Word16) (s : State) : (ptrSet p v s).f = s.f := by
  cases p <;> rfl

@[simp] theorem ptrSet_mem (p : Pointer) (v : Word16) (s : State) : (ptrSet p v s).mem = s.mem := by
  cases p <;> rfl

@[simp] theorem ptrSet_cyc (p : Pointer) (v : Word16) (s : State) : (ptrSet p v s).cyc = s.cyc := by
  cases p <;> rfl

@[simp] theorem ptrSet_fault (p : Pointer) (v : Word16) (s : State) : (ptrSet p v s).fault = s.fault := by
  cases p <;> rfl

@[simp] theorem ptrValue_ptrSet (q p : Pointer) (v : Word16) (s : State) :
    ptrValue q (ptrSet p v s) = if q = p then v else ptrValue q s := by
  cases q <;> cases p <;> rfl

@[simp] theorem ptrSet_pc_pc (v : Word16) (s : State) : (ptrSet .pc v s).pc = v := rfl

@[simp] theorem ptrSet_pc_sp (v : Word16) (s : State) : (ptrSet .pc v s).sp = s.sp := rfl

@[simp] theorem ptrSet_sp_pc (v : Word16) (s : State) : (ptrSet .sp v s).pc = s.pc := rfl

@[simp] theorem ptrSet_sp_sp (v : Word16) (s : State) : (ptrSet .sp v s).sp = v := rfl

@[simp] theorem readReg_ptrSet (r : Reg) (p : Pointer) (v : Word16) (s : State) :
    readReg r (ptrSet p v s) = readReg r s := by
  cases r <;> cases p <;> rfl

@[simp] theorem memRead_ptrSet (x : Word16) (p : Pointer) (v : Word16) (s : State) :
    memRead x (ptrSet p v s) = memRead x s := by
  cases p <;> rfl

@[simp] theorem memRead_writeReg (x : Word16) (r : Reg) (v : Byte) (s : State) :
    memRead x (writeReg r v s) = memRead x s := by
  cases r <;> rfl

@[simp] theorem writeF_a (v : Byte) (s : State) : (writeF v s).a = s.a := rfl

@[simp] theorem writeF_b (v : Byte) (s : State) : (writeF v s).b = s.b := rfl

@[simp] theorem writeF_c (v : Byte) (s : State) : (writeF v s).c = s.c := rfl

@[simp] theorem writeF_d (v : Byte) (s : State) : (writeF v s).d = s.d := rfl

@[simp] theorem writeF_e (v : Byte) (s : State) : (writeF v s).e = s.e := rfl

@[simp] theorem writeF_h (v : Byte) (s : State) : (writeF v s).h = s.h := rfl

@[simp] theorem writeF_l (v : Byte) (s : State) : (writeF v s).l = s.l := rfl

@[simp] theorem writeF_pc (v : Byte) (s : State) : (writeF v s).pc = s.pc := rfl

@[simp] theorem writeF_sp (v : Byte) (s : State) : (writeF v s).sp = s.sp := rfl

@[simp] theorem writeF_mem (v : Byte) (s : State) : (writeF v s).mem = s.mem := rfl

@[simp] theorem writeF_cyc (v : Byte) (s : State) : (writeF v s).cyc = s.cyc := rfl

@[simp] theorem writeF_fault (v : Byte) (s : State) : (writeF v s).fault = s.fault := rfl

@[simp] theorem setCyc_a (v : Count) (s : State) : (setCyc v s).a = s.a := rfl

@[simp] theorem setCyc_b (v : Count) (s : State) : (setCyc v s).b = s.b := rfl

@[simp] theorem setCyc_c (v : Count) (s : State) : (setCyc v s).c = s.c := rfl

@[simp] theorem setCyc_d (v : Count) (s : State) : (setCyc v s).d = s.d := rfl

@[simp] theorem setCyc_e (v : Count) (s : State) : (setCyc v s).e = s.e := rfl

@[simp] theorem setCyc_h (v : Count) (s : State) : (setCyc v s).h = s.h := rfl

@[simp] theorem setCyc_l (v : Count) (s : State) : (setCyc v s).l = s.l := rfl

@[simp] theorem setCyc_f (v : Count) (s : State) : (setCyc v s).f = s.f := rfl

@[simp] theorem setCyc_pc (v : Count) (s : State) : (setCyc v s).pc = s.pc := rfl

@[simp] theorem setCyc_sp (v : Count) (s : State) : (setCyc v s).sp = s.sp := rfl

@[simp] theorem setCyc_mem (v : Count) (s : State) : (setCyc v s).mem = s.mem := rfl

@[simp] theorem setCyc_fault (v : Count) (s : State) : (setCyc v s).fault = s.fault := rfl

@[simp] theorem latchFault_a (r : FaultRecord) (s : State) : (latchFault r s).a = s.a := rfl

@[simp] theorem latchFault_b (r : FaultRecord) (s : State) : (latchFault r s).b = s.b := rfl

@[simp] theorem latchFault_c (r : FaultRecord) (s : State) : (latchFault r s).c = s.c := rfl

@[simp] theorem latchFault_d (r : FaultRecord) (s : State) : (latchFault r s).d = s.d := rfl

@[simp] theorem latchFault_e (r : FaultRecord) (s : State) : (latchFault r s).e = s.e := rfl

@[simp] theorem latchFault_h (r : FaultRecord) (s : State) : (latchFault r s).h = s.h := rfl

@[simp] theorem latchFault_l (r : FaultRecord) (s : State) : (latchFault r s).l = s.l := rfl

@[simp] theorem latchFault_f (r : FaultRecord) (s : State) : (latchFault r s).f = s.f := rfl

@[simp] theorem latchFault_pc (r : FaultRecord) (s : State) : (latchFault r s).pc = s.pc := rfl

@[simp] theorem latchFault_sp (r : FaultRecord) (s : State) : (latchFault r s).sp = s.sp := rfl

@[simp] theorem latchFault_mem (r : FaultRecord) (s : State) : (latchFault r s).mem = s.mem := rfl

@[simp] theorem latchFault_cyc (r : FaultRecord) (s : State) : (latchFault r s).cyc = s.cyc := rfl

@[simp] theorem setCyc_cyc (v : Count) (s : State) : (setCyc v s).cyc = v := rfl

@[simp] theorem readReg_setCyc (r : Reg) (v : Count) (s : State) : readReg r (setCyc v s) = readReg r s := by
  cases r <;> rfl

@[simp] theorem memRead_setCyc (x : Word16) (v : Count) (s : State) : memRead x (setCyc v s) = memRead x s := rfl

@[simp] theorem latchFault_fault (r : FaultRecord) (s : State) : (latchFault r s).fault = some r := rfl

@[simp] theorem readReg_latchFault (q : Reg) (r : FaultRecord) (s : State) :
    readReg q (latchFault r s) = readReg q s := by
  cases q <;> rfl

@[simp] theorem memRead_latchFault (x : Word16) (r : FaultRecord) (s : State) :
    memRead x (latchFault r s) = memRead x s := rfl

@[simp] theorem memRead_writeF (x : Word16) (v : Byte) (s : State) : memRead x (writeF v s) = memRead x s := rfl

@[simp] theorem writeF_f (v : Byte) (s : State) : (writeF v s).f = v := rfl

@[simp] theorem readReg_writeF (r : Reg) (v : Byte) (s : State) : readReg r (writeF v s) = readReg r s := by
  cases r <;> rfl

end Sys2Proof.Machine
end

