-- ==== Sys2Proof/Laws/Memory.lean ====
section
/-! SUPPORT. The laws of memory: what a read gives after a store, that every memory operation keeps the canonical
form, and that every state update keeps it. -/

namespace Sys2Proof.Machine

theorem Memory.read_drop (m : Memory) (x y : Nat) :
    Memory.read (Memory.drop m x) y = if y = x then 0#8 else Memory.read m y := by
  induction m with
  | nil => simp [Memory.drop, Memory.read]
  | cons cell rest ih =>
    simp only [Memory.drop, Memory.read]
    split <;> rename_i h
    · rw [ih]; split <;> rename_i h'
      · rfl
      · rw [if_neg (by omega)]
    · simp only [Memory.read, ih]
      split <;> rename_i h'
      · rw [if_neg (by omega)]
      · rfl

theorem Memory.read_place (m : Memory) (x y : Nat) (v : Byte) (fresh : ∀ cell ∈ m, cell.1 ≠ x) :
    Memory.read (Memory.place m x v) y = if y = x then v else Memory.read m y := by
  induction m with
  | nil => simp only [Memory.place, Memory.read, eq_comm]
  | cons cell rest ih =>
    have hc := fresh cell List.mem_cons_self
    have hr : ∀ c ∈ rest, c.1 ≠ x := fun c h => fresh c (List.mem_cons_of_mem _ h)
    simp only [Memory.place]
    split
    · simp only [Memory.read, eq_comm (a := x)]
    · simp only [Memory.read, ih hr]
      split <;> rename_i h'
      · rw [if_neg (by omega)]
      · rfl

theorem Memory.fresh_drop (m : Memory) (x : Nat) : ∀ cell ∈ Memory.drop m x, cell.1 ≠ x := by
  induction m with
  | nil => simp [Memory.drop]
  | cons cell rest ih =>
    simp only [Memory.drop]
    split
    · exact ih
    · simpa [*] using ih

theorem Memory.drop_subset (m : Memory) (x : Nat) : ∀ cell ∈ Memory.drop m x, cell ∈ m := by
  induction m with
  | nil => simp [Memory.drop]
  | cons cell rest ih =>
    intro c hc
    simp only [Memory.drop] at hc
    split at hc
    · exact List.mem_cons_of_mem _ (ih c hc)
    · rcases List.mem_cons.mp hc with rfl | hc
      · exact List.mem_cons_self
      · exact List.mem_cons_of_mem _ (ih c hc)

theorem Memory.mem_place (m : Memory) (x : Nat) (v : Byte) :
    ∀ cell ∈ Memory.place m x v, cell = (x, v) ∨ cell ∈ m := by
  induction m with
  | nil => simp [Memory.place]
  | cons cell rest ih =>
    intro c hc
    simp only [Memory.place] at hc
    split at hc
    · simpa using hc
    · rcases List.mem_cons.mp hc with rfl | hc
      · exact .inr List.mem_cons_self
      · exact (ih c hc).imp_right (List.mem_cons_of_mem _)

/-- What a read gives after a store, for every memory, canonical or not (20_memory.md R53, R54). -/
theorem Memory.read_write (m : Memory) (x y : Nat) (v : Byte) :
    Memory.read (Memory.write m x v) y = if y = x then v else Memory.read m y := by
  simp only [Memory.write]
  split <;> rename_i hv
  · rw [Memory.read_drop, hv]
  · rw [Memory.read_place _ _ _ _ (Memory.fresh_drop m x), Memory.read_drop]
    split <;> rfl

theorem Memory.drop_wf {m : Memory} (x : Nat) (h : Memory.wf m) : Memory.wf (Memory.drop m x) := by
  induction m with
  | nil => exact h
  | cons cell rest ih =>
    obtain ⟨hp, hb⟩ := h
    have hrest : Memory.wf rest := ⟨hp.of_cons, fun c hc => hb c (List.mem_cons_of_mem _ hc)⟩
    simp only [Memory.drop]
    split
    · exact ih hrest
    · refine ⟨List.pairwise_cons.mpr ⟨fun c hc => ?_, (ih hrest).1⟩, fun c hc => ?_⟩
      · exact (List.pairwise_cons.mp hp).1 c (Memory.drop_subset rest x c hc)
      · rcases List.mem_cons.mp hc with rfl | hc
        · exact hb _ List.mem_cons_self
        · exact (ih hrest).2 c hc

theorem Memory.place_wf {m : Memory} {x : Nat} {v : Byte} (h : Memory.wf m) (hx : x < 65536) (hv : v ≠ 0#8)
    (fresh : ∀ cell ∈ m, cell.1 ≠ x) : Memory.wf (Memory.place m x v) := by
  induction m with
  | nil => exact ⟨List.pairwise_singleton _ _, by simp [Memory.place, hx, hv]⟩
  | cons cell rest ih =>
    obtain ⟨hp, hb⟩ := h
    have hrest : Memory.wf rest := ⟨hp.of_cons, fun c hc => hb c (List.mem_cons_of_mem _ hc)⟩
    have hr : ∀ c ∈ rest, c.1 ≠ x := fun c hc => fresh c (List.mem_cons_of_mem _ hc)
    have hc := fresh cell List.mem_cons_self
    simp only [Memory.place]
    split <;> rename_i hlt
    · refine ⟨List.pairwise_cons.mpr ⟨fun c hm => ?_, hp⟩, fun c hm => ?_⟩
      · rcases List.mem_cons.mp hm with rfl | hm
        · exact hlt
        · exact lt_trans hlt ((List.pairwise_cons.mp hp).1 c hm)
      · rcases List.mem_cons.mp hm with rfl | hm
        · exact ⟨hx, hv⟩
        · exact hb c hm
    · refine ⟨List.pairwise_cons.mpr ⟨fun c hm => ?_, (ih hrest hr).1⟩, fun c hm => ?_⟩
      · rcases Memory.mem_place rest x v c hm with rfl | hm
        · show cell.1 < x
          omega
        · exact (List.pairwise_cons.mp hp).1 c hm
      · rcases List.mem_cons.mp hm with rfl | hm
        · exact hb _ List.mem_cons_self
        · exact (ih hrest hr).2 c hm

/-- A store keeps the canonical form. -/
theorem Memory.write_wf {m : Memory} {x : Nat} (v : Byte) (h : Memory.wf m) (hx : x < 65536) :
    Memory.wf (Memory.write m x v) := by
  simp only [Memory.write]
  split <;> rename_i hv
  · exact Memory.drop_wf x h
  · exact Memory.place_wf (Memory.drop_wf x h) hx hv (Memory.fresh_drop m x)

theorem reset_mem_wf : Memory.wf State.reset.mem := by decide

theorem memWrite_wf {s : State} (x : Word16) (v : Byte) (h : Memory.wf s.mem) :
    Memory.wf (memWrite x v s).mem :=
  Memory.write_wf v h x.isLt

theorem memRead_memWrite (x y : Word16) (v : Byte) (s : State) :
    memRead y (memWrite x v s) = if y = x then v else memRead y s := by
  simp only [memRead, memWrite, Memory.read_write, BitVec.toNat_inj]

theorem writeOperand_wf {s : State} (o : Operand) (v : Byte) (h : Memory.wf s.mem) :
    Memory.wf (writeOperand o v s).mem := by
  cases o with
  | reg r => simpa [writeOperand] using h
  | m => exact memWrite_wf _ _ h

theorem storeBytes_wf {s : State} (x : Word16) (bytes : List Byte) (h : Memory.wf s.mem) :
    Memory.wf (storeBytes x bytes s).mem := by
  induction bytes generalizing x s with
  | nil => exact h
  | cons v rest ih => exact ih _ (memWrite_wf x v h)

theorem portWrite_wf {s : State} (w : PortWrite) (h : Memory.wf s.mem) : Memory.wf (portWrite w s).mem := by
  cases w with
  | reg r v => simpa [portWrite] using h
  | f v => exact h
  | ptr p v => simpa [portWrite] using h
  | mem x v => exact memWrite_wf x v h

end Sys2Proof.Machine
end

