-- ==== Sys2Proof/Laws/Ops.lean ====
section
/-! SUPPORT. One lemma per shared operation that says everything it can do. -/

namespace Sys2Proof.Machine

/-- An accepted transaction is its body (40_dispatch.md R102). -/
theorem accept_of_none {s : State} (h : s.fault = none) (body : Host.Outcome State Fault Refusal) :
    accept s body = body := by
  simp only [accept, h]

/-- A latched block has no step (40_dispatch.md R102). -/
theorem accept_of_latched {s : State} (h : s.fault.isSome = true) (body : Host.Outcome State Fault Refusal) :
    accept s body = .fault .faultLatched := by
  obtain ⟨r, hr⟩ := Option.isSome_iff_exists.mp h
  simp only [accept, hr]

/-- If `accept` answers a next state, the block was not faulted and the body answers it. -/
theorem accept_next {s t : State} {body : Host.Outcome State Fault Refusal} (h : accept s body = .next t) :
    s.fault = none ∧ body = .next t := by
  unfold accept at h
  split at h
  · exact ⟨‹_›, h⟩
  · cases h

/-- A commit with room in CYC (40_dispatch.md R107). -/
theorem commit_of_le {cost : Nat} {staged : State} (h : staged.cyc.toNat + cost ≤ 2 ^ 64 - 1) :
    commit cost staged = .next (setCyc (staged.cyc + BitVec.ofNat 64 cost) staged) := by
  have e : BitVec.ofNat 64 (staged.cyc.toNat + cost) = staged.cyc + BitVec.ofNat 64 cost := by
    rw [BitVec.ofNat_add, BitVec.ofNat_toNat, BitVec.setWidth_eq]
  rw [commit, if_pos h, e]

/-- A commit without room in CYC has no step (40_dispatch.md R107). -/
theorem commit_of_not_le {cost : Nat} {staged : State} (h : ¬ staged.cyc.toNat + cost ≤ 2 ^ 64 - 1) :
    commit cost staged = .fault .cycLimit := by
  rw [commit, if_neg h]

/-- If `commit` answers a next state, CYC had room and only CYC differs from the staged state. -/
theorem commit_next {cost : Nat} {staged t : State} (h : commit cost staged = .next t) :
    staged.cyc.toNat + cost ≤ 2 ^ 64 - 1 ∧
      t = setCyc (staged.cyc + BitVec.ofNat 64 cost) staged := by
  by_cases hc : staged.cyc.toNat + cost ≤ 2 ^ 64 - 1
  · rw [commit_of_le hc] at h
    injection h with h
    exact ⟨hc, h.symm⟩
  · rw [commit_of_not_le hc] at h
    cases h

/-- The charged sum is exact (40_dispatch.md R107). -/
theorem charged_toNat {c : Count} {cost : Nat} (h : c.toNat + cost ≤ 2 ^ 64 - 1) :
    (c + BitVec.ofNat 64 cost).toNat = c.toNat + cost := by
  rw [BitVec.toNat_add, BitVec.toNat_ofNat]
  omega

/-- The error outcome writes only FAULT (60_exceptions.md R220). -/
theorem raiseInvalidOpcode_eq (sel : Sel) (op : Byte) (s : State) :
    raiseInvalidOpcode sel op s = .next (latchFault (recordOf sel op s) s) := rfl

/-- `(hi << 8) | lo` is the concatenation of the two bytes (00_scope.md R7). -/
theorem joinBytes_eq (hi lo : Byte) : joinBytes hi lo = hi ++ lo := by
  apply BitVec.eq_of_toNat_eq
  have h := hi.isLt
  simp only [joinBytes, BitVec.toNat_or, BitVec.toNat_shiftLeft, BitVec.toNat_setWidth, BitVec.toNat_append,
    Nat.shiftLeft_eq]
  rw [Nat.mod_eq_of_lt (a := hi.toNat) (by omega), Nat.mod_eq_of_lt (b := 2 ^ 16) (by omega),
    Nat.mod_eq_of_lt (a := lo.toNat) (by omega)]

/-- The number `(hi << 8) | lo` stands for. -/
theorem joinBytes_toNat (hi lo : Byte) : (joinBytes hi lo).toNat = hi.toNat * 256 + lo.toNat := by
  rw [joinBytes_eq, BitVec.toNat_append, ← Nat.shiftLeft_add_eq_or_of_lt lo.isLt, Nat.shiftLeft_eq]

theorem immLo_toNat (imm : Word16) : (immLo imm).toNat = imm.toNat % 256 := by
  simp [immLo]

theorem immHi_toNat (imm : Word16) : (immHi imm).toNat = imm.toNat / 256 := by
  have h := imm.isLt
  simp only [immHi, BitVec.extractLsb'_toNat, Nat.shiftRight_eq_div_pow]
  omega

@[simp] theorem joinBytes_immHi_immLo (imm : Word16) : joinBytes (immHi imm) (immLo imm) = imm := by
  apply BitVec.eq_of_toNat_eq
  rw [joinBytes_toNat, immLo_toNat, immHi_toNat]
  omega

@[simp] theorem immLo_joinBytes (hi lo : Byte) : immLo (joinBytes hi lo) = lo := by
  apply BitVec.eq_of_toNat_eq
  have h := lo.isLt
  rw [immLo_toNat, joinBytes_toNat]
  omega

@[simp] theorem immHi_joinBytes (hi lo : Byte) : immHi (joinBytes hi lo) = hi := by
  apply BitVec.eq_of_toNat_eq
  have h := lo.isLt
  rw [immHi_toNat, joinBytes_toNat]
  omega

/-- An LXI into a pair (42_lxi.md R201 to R203). -/
theorem stageLxiPair_eq (hi lo : Reg) (s : State) :
    stageLxiPair hi lo s =
      writeReg hi (memRead (s.pc + 1#16) s) (writeReg lo (memRead s.pc s) { s with pc := s.pc + 2#16 }) := by
  have e : s.pc + 1#16 + 1#16 = s.pc + 2#16 := by rw [BitVec.add_assoc]; rfl
  rw [← e]
  cases hi <;> cases lo <;> rfl

/-- An LXI into SP (42_lxi.md R204). -/
theorem stageLxiSp_eq (s : State) :
    stageLxiSp s =
      { s with pc := s.pc + 2#16, sp := joinBytes (memRead (s.pc + 1#16) s) (memRead s.pc s) } := by
  have e : s.pc + 1#16 + 1#16 = s.pc + 2#16 := by rw [BitVec.add_assoc]; rfl
  rw [← e]
  rfl

end Sys2Proof.Machine
end

