-- ==== Sys2Proof/Laws/Exec.lean ====
section
/-! SUPPORT. What a transaction, an instruction and a step can do, said once: every later proof splits on these
cases instead of unfolding the functions. -/

namespace Sys2Proof.Machine

/-- The staged state of a decoded instruction, before CYC is charged (40_dispatch.md R105). -/
def stageOf (d : Decoded) (s : State) : State :=
  match d with
  | .movRegReg dst src => writeOperand (.reg dst) (readOperand (.reg src) s) s
  | .movRegMem dst => writeOperand (.reg dst) (readOperand .m s) s
  | .movMemReg src => writeOperand .m (readOperand (.reg src) s) s
  | .lxi rp => stageLxi rp s
  | .invalid => s

@[simp] theorem stageOf_cyc (d : Decoded) (s : State) : (stageOf d s).cyc = s.cyc := by
  cases d with
  | lxi rp => cases rp <;> rfl
  | _ => simp [stageOf, writeOperand]

@[simp] theorem stageOf_fault (d : Decoded) (s : State) : (stageOf d s).fault = s.fault := by
  cases d with
  | lxi rp => cases rp <;> rfl
  | _ => simp [stageOf, writeOperand]

@[simp] theorem stageOf_f (d : Decoded) (s : State) : (stageOf d s).f = s.f := by
  cases d with
  | lxi rp => cases rp <;> rfl
  | _ => simp [stageOf, writeOperand]

theorem stageOf_wf {s : State} (d : Decoded) (h : Memory.wf s.mem) : Memory.wf (stageOf d s).mem := by
  cases d with
  | lxi rp => cases rp <;> exact h
  | movRegReg dst src => exact writeOperand_wf _ _ h
  | movRegMem dst => exact writeOperand_wf _ _ h
  | movMemReg src => exact writeOperand_wf _ _ h
  | invalid => exact h

/-- A transaction: acceptance, the family check, then the charged commit or the error outcome
(60_exceptions.md R223). -/
theorem executeWith_eq (k : Costs) (sel : Sel) (op : Byte) (s : State) :
    executeWith k sel op s =
      accept s (if familyAccepts sel (decodeFields op) = true then
          commit (costOf k (decodeFields op)) (stageOf (decodeFields op) s)
        else raiseInvalidOpcode sel op s) := by
  unfold executeWith
  cases decodeFields op <;> cases sel <;> rfl

/-- An instruction under the unified dispatcher (40_dispatch.md R101, R105). -/
theorem exec_eq (i : Instr) (s : State) :
    exec i s =
      accept s (match i.decoded with
        | .invalid => raiseInvalidOpcode .any (opcodeOf i) s
        | d => commit (costOf costs d) (stageOf d s)) := by
  cases i <;> rfl

/-- Everything a transaction's next state can be. -/
theorem executeWith_next {k : Costs} {sel : Sel} {op : Byte} {s t : State} (h : executeWith k sel op s = .next t) :
    s.fault = none ∧
      ((familyAccepts sel (decodeFields op) = false ∧ t = latchFault (recordOf sel op s) s) ∨
       (familyAccepts sel (decodeFields op) = true ∧
        s.cyc.toNat + costOf k (decodeFields op) ≤ 2 ^ 64 - 1 ∧
        t = setCyc (s.cyc + BitVec.ofNat 64 (costOf k (decodeFields op))) (stageOf (decodeFields op) s))) := by
  rw [executeWith_eq] at h
  obtain ⟨hf, h⟩ := accept_next h
  refine ⟨hf, ?_⟩
  cases hacc : familyAccepts sel (decodeFields op) with
  | true =>
    rw [hacc, if_pos rfl] at h
    obtain ⟨hc, rfl⟩ := commit_next h
    rw [stageOf_cyc] at hc ⊢
    exact .inr ⟨rfl, hc, rfl⟩
  | false =>
    rw [hacc, if_neg Bool.false_ne_true, raiseInvalidOpcode_eq] at h
    injection h with h
    exact .inl ⟨rfl, h.symm⟩

/-- Everything an instruction's next state can be. -/
theorem exec_next {i : Instr} {s t : State} (h : exec i s = .next t) :
    s.fault = none ∧
      ((i.decoded = .invalid ∧ t = latchFault (recordOf .any (opcodeOf i) s) s) ∨
       (i.decoded ≠ .invalid ∧ s.cyc.toNat + costOf costs i.decoded ≤ 2 ^ 64 - 1 ∧
        t = setCyc (s.cyc + BitVec.ofNat 64 (costOf costs i.decoded)) (stageOf i.decoded s))) := by
  rw [exec_eq] at h
  obtain ⟨hf, h⟩ := accept_next h
  refine ⟨hf, ?_⟩
  cases hd : i.decoded <;> rw [hd] at h
  case invalid =>
    rw [raiseInvalidOpcode_eq] at h
    injection h with h
    exact .inl ⟨rfl, h.symm⟩
  all_goals
    obtain ⟨hc, rfl⟩ := commit_next h
    rw [stageOf_cyc] at hc ⊢
    exact .inr ⟨by simp, hc, rfl⟩

/-- HL is the concatenation of H and L (10_state.md R24). -/
theorem hlAddr_eq (s : State) : hlAddr s = s.h ++ s.l := joinBytes_eq _ _

/-- The staged state of each decoded form, in terms of the old state (41_mov.md R121 to R123, 42_lxi.md R201 to
R204). -/
theorem stageOf_eq (d : Decoded) (s : State) :
    stageOf d s = match d with
      | .movRegReg dst src => writeReg dst (readReg src s) s
      | .movRegMem dst => writeReg dst (memRead (s.h ++ s.l) s) s
      | .movMemReg src => memWrite (s.h ++ s.l) (readReg src s) s
      | .lxi .bc => { s with b := memRead (s.pc + 1#16) s, c := memRead s.pc s, pc := s.pc + 2#16 }
      | .lxi .de => { s with d := memRead (s.pc + 1#16) s, e := memRead s.pc s, pc := s.pc + 2#16 }
      | .lxi .hl => { s with h := memRead (s.pc + 1#16) s, l := memRead s.pc s, pc := s.pc + 2#16 }
      | .lxi .sp => { s with sp := memRead (s.pc + 1#16) s ++ memRead s.pc s, pc := s.pc + 2#16 }
      | .invalid => s := by
  cases d with
  | lxi rp =>
    cases rp with
    | sp => exact (stageLxiSp_eq s).trans (by rw [joinBytes_eq])
    | bc => exact stageLxiPair_eq .b .c s
    | de => exact stageLxiPair_eq .d .e s
    | hl => exact stageLxiPair_eq .h .l s
  | movRegReg dst src => rfl
  | movRegMem dst => simp only [stageOf, writeOperand, readOperand, hlAddr_eq]
  | movMemReg src => simp only [stageOf, writeOperand, readOperand, hlAddr_eq]
  | invalid => rfl

end Sys2Proof.Machine
end

