-- ==== Sys2Proof/Laws/PerInstr.lean ====
section
/-! SUPPORT. Statements about every instruction as syntax, one lemma per constructor. -/

namespace Sys2Proof.Laws

/-- At most one operand of an instruction is the memory byte M (20_memory.md R58; 30_encoding.md R93: mem_src and
mem_dst are never both 1). -/
def OneMemoryOperand.Statement (i : Instr) : Prop :=
  ¬ (Machine.memSrcOf i.decoded = true ∧ Machine.memDstOf i.decoded = true)

theorem OneMemoryOperand.movBB : OneMemoryOperand.Statement .movBB := fun h => Bool.noConfusion h.1

theorem OneMemoryOperand.movBC : OneMemoryOperand.Statement .movBC := fun h => Bool.noConfusion h.1

theorem OneMemoryOperand.movBD : OneMemoryOperand.Statement .movBD := fun h => Bool.noConfusion h.1

theorem OneMemoryOperand.movBE : OneMemoryOperand.Statement .movBE := fun h => Bool.noConfusion h.1

theorem OneMemoryOperand.movBH : OneMemoryOperand.Statement .movBH := fun h => Bool.noConfusion h.1

theorem OneMemoryOperand.movBL : OneMemoryOperand.Statement .movBL := fun h => Bool.noConfusion h.1

theorem OneMemoryOperand.movBM : OneMemoryOperand.Statement .movBM := fun h => Bool.noConfusion h.2

theorem OneMemoryOperand.movBA : OneMemoryOperand.Statement .movBA := fun h => Bool.noConfusion h.1

theorem OneMemoryOperand.movCB : OneMemoryOperand.Statement .movCB := fun h => Bool.noConfusion h.1

theorem OneMemoryOperand.movCC : OneMemoryOperand.Statement .movCC := fun h => Bool.noConfusion h.1

theorem OneMemoryOperand.movCD : OneMemoryOperand.Statement .movCD := fun h => Bool.noConfusion h.1

theorem OneMemoryOperand.movCE : OneMemoryOperand.Statement .movCE := fun h => Bool.noConfusion h.1

theorem OneMemoryOperand.movCH : OneMemoryOperand.Statement .movCH := fun h => Bool.noConfusion h.1

theorem OneMemoryOperand.movCL : OneMemoryOperand.Statement .movCL := fun h => Bool.noConfusion h.1

theorem OneMemoryOperand.movCM : OneMemoryOperand.Statement .movCM := fun h => Bool.noConfusion h.2

theorem OneMemoryOperand.movCA : OneMemoryOperand.Statement .movCA := fun h => Bool.noConfusion h.1

theorem OneMemoryOperand.movDB : OneMemoryOperand.Statement .movDB := fun h => Bool.noConfusion h.1

theorem OneMemoryOperand.movDC : OneMemoryOperand.Statement .movDC := fun h => Bool.noConfusion h.1

theorem OneMemoryOperand.movDD : OneMemoryOperand.Statement .movDD := fun h => Bool.noConfusion h.1

theorem OneMemoryOperand.movDE : OneMemoryOperand.Statement .movDE := fun h => Bool.noConfusion h.1

theorem OneMemoryOperand.movDH : OneMemoryOperand.Statement .movDH := fun h => Bool.noConfusion h.1

theorem OneMemoryOperand.movDL : OneMemoryOperand.Statement .movDL := fun h => Bool.noConfusion h.1

theorem OneMemoryOperand.movDM : OneMemoryOperand.Statement .movDM := fun h => Bool.noConfusion h.2

theorem OneMemoryOperand.movDA : OneMemoryOperand.Statement .movDA := fun h => Bool.noConfusion h.1

theorem OneMemoryOperand.movEB : OneMemoryOperand.Statement .movEB := fun h => Bool.noConfusion h.1

theorem OneMemoryOperand.movEC : OneMemoryOperand.Statement .movEC := fun h => Bool.noConfusion h.1

theorem OneMemoryOperand.movED : OneMemoryOperand.Statement .movED := fun h => Bool.noConfusion h.1

theorem OneMemoryOperand.movEE : OneMemoryOperand.Statement .movEE := fun h => Bool.noConfusion h.1

theorem OneMemoryOperand.movEH : OneMemoryOperand.Statement .movEH := fun h => Bool.noConfusion h.1

theorem OneMemoryOperand.movEL : OneMemoryOperand.Statement .movEL := fun h => Bool.noConfusion h.1

theorem OneMemoryOperand.movEM : OneMemoryOperand.Statement .movEM := fun h => Bool.noConfusion h.2

theorem OneMemoryOperand.movEA : OneMemoryOperand.Statement .movEA := fun h => Bool.noConfusion h.1

theorem OneMemoryOperand.movHB : OneMemoryOperand.Statement .movHB := fun h => Bool.noConfusion h.1

theorem OneMemoryOperand.movHC : OneMemoryOperand.Statement .movHC := fun h => Bool.noConfusion h.1

theorem OneMemoryOperand.movHD : OneMemoryOperand.Statement .movHD := fun h => Bool.noConfusion h.1

theorem OneMemoryOperand.movHE : OneMemoryOperand.Statement .movHE := fun h => Bool.noConfusion h.1

theorem OneMemoryOperand.movHH : OneMemoryOperand.Statement .movHH := fun h => Bool.noConfusion h.1

theorem OneMemoryOperand.movHL : OneMemoryOperand.Statement .movHL := fun h => Bool.noConfusion h.1

theorem OneMemoryOperand.movHM : OneMemoryOperand.Statement .movHM := fun h => Bool.noConfusion h.2

theorem OneMemoryOperand.movHA : OneMemoryOperand.Statement .movHA := fun h => Bool.noConfusion h.1

theorem OneMemoryOperand.movLB : OneMemoryOperand.Statement .movLB := fun h => Bool.noConfusion h.1

theorem OneMemoryOperand.movLC : OneMemoryOperand.Statement .movLC := fun h => Bool.noConfusion h.1

theorem OneMemoryOperand.movLD : OneMemoryOperand.Statement .movLD := fun h => Bool.noConfusion h.1

theorem OneMemoryOperand.movLE : OneMemoryOperand.Statement .movLE := fun h => Bool.noConfusion h.1

theorem OneMemoryOperand.movLH : OneMemoryOperand.Statement .movLH := fun h => Bool.noConfusion h.1

theorem OneMemoryOperand.movLL : OneMemoryOperand.Statement .movLL := fun h => Bool.noConfusion h.1

theorem OneMemoryOperand.movLM : OneMemoryOperand.Statement .movLM := fun h => Bool.noConfusion h.2

theorem OneMemoryOperand.movLA : OneMemoryOperand.Statement .movLA := fun h => Bool.noConfusion h.1

theorem OneMemoryOperand.movMB : OneMemoryOperand.Statement .movMB := fun h => Bool.noConfusion h.1

theorem OneMemoryOperand.movMC : OneMemoryOperand.Statement .movMC := fun h => Bool.noConfusion h.1

theorem OneMemoryOperand.movMD : OneMemoryOperand.Statement .movMD := fun h => Bool.noConfusion h.1

theorem OneMemoryOperand.movME : OneMemoryOperand.Statement .movME := fun h => Bool.noConfusion h.1

theorem OneMemoryOperand.movMH : OneMemoryOperand.Statement .movMH := fun h => Bool.noConfusion h.1

theorem OneMemoryOperand.movML : OneMemoryOperand.Statement .movML := fun h => Bool.noConfusion h.1

theorem OneMemoryOperand.reservedMovMM : OneMemoryOperand.Statement .reservedMovMM := fun h => Bool.noConfusion h.1

theorem OneMemoryOperand.movMA : OneMemoryOperand.Statement .movMA := fun h => Bool.noConfusion h.1

theorem OneMemoryOperand.movAB : OneMemoryOperand.Statement .movAB := fun h => Bool.noConfusion h.1

theorem OneMemoryOperand.movAC : OneMemoryOperand.Statement .movAC := fun h => Bool.noConfusion h.1

theorem OneMemoryOperand.movAD : OneMemoryOperand.Statement .movAD := fun h => Bool.noConfusion h.1

theorem OneMemoryOperand.movAE : OneMemoryOperand.Statement .movAE := fun h => Bool.noConfusion h.1

theorem OneMemoryOperand.movAH : OneMemoryOperand.Statement .movAH := fun h => Bool.noConfusion h.1

theorem OneMemoryOperand.movAL : OneMemoryOperand.Statement .movAL := fun h => Bool.noConfusion h.1

theorem OneMemoryOperand.movAM : OneMemoryOperand.Statement .movAM := fun h => Bool.noConfusion h.2

theorem OneMemoryOperand.movAA : OneMemoryOperand.Statement .movAA := fun h => Bool.noConfusion h.1

theorem OneMemoryOperand.lxiB : OneMemoryOperand.Statement .lxiB := fun h => Bool.noConfusion h.1

theorem OneMemoryOperand.lxiD : OneMemoryOperand.Statement .lxiD := fun h => Bool.noConfusion h.1

theorem OneMemoryOperand.lxiH : OneMemoryOperand.Statement .lxiH := fun h => Bool.noConfusion h.1

theorem OneMemoryOperand.lxiSP : OneMemoryOperand.Statement .lxiSP := fun h => Bool.noConfusion h.1

theorem OneMemoryOperand.invalid (op : Byte) : OneMemoryOperand.Statement (.invalid op) :=
  fun h => Bool.noConfusion h.1

end Sys2Proof.Laws
end

