-- ==== Sys2Proof/Laws/Run.lean ====
section
/-! SUPPORT. What a driver step, its reply and a run can do, said once. -/

namespace Sys2Proof.Machine

/-- Everything a driver step's next state and reply can be: the commit with the reply OK, or the error outcome with
the reply ERR and a faulted state (40_dispatch.md R100, R111). -/
theorem driverStepWith_next {k : Costs} {s t : State} (h : driverStepWith k s = .next t) :
    s.fault = none ∧
      ((driverReplyWith k s = some .ok ∧ t.fault = none ∧
        t.cyc.toNat = s.cyc.toNat + costOf k (decodeFields (fetchOpcode s))) ∨
       (driverReplyWith k s = some (.err (fetchOpcode s) (s.pc + 1#16)) ∧
        t = latchFault (recordOf .any (fetchOpcode s) (consumeOpcode s)) (consumeOpcode s))) := by
  have hx : executeWith k .any (fetchOpcode s) (consumeOpcode s) = .next t := h
  obtain ⟨hf, ⟨hacc, rfl⟩ | ⟨hacc, hc, rfl⟩⟩ := executeWith_next hx
  · exact ⟨hf, .inr ⟨by simp only [driverReplyWith, replyWith, hx, hacc]; rfl, rfl⟩⟩
  · refine ⟨hf, .inl ⟨by simp only [driverReplyWith, replyWith, hx, hacc]; rfl, ?_, charged_toNat hc⟩⟩
    exact (stageOf_fault _ _).trans hf

/-- A faulted state has no driver step (40_dispatch.md R102, R111). -/
theorem driverStepWith_of_latched {s : State} (k : Costs) (h : s.fault.isSome = true) :
    driverStepWith k s = .fault .faultLatched :=
  (executeWith_eq k .any _ (consumeOpcode s)).trans (accept_of_latched h _)

/-- A run from a faulted state ends there. -/
theorem runBy_of_faulted {s : State} (drive : State → Host.Outcome State Fault Refusal) (n : Nat)
    (h : s.fault.isSome = true) : runBy drive n s = .faulted s := by
  unfold runBy
  exact if_pos h

/-- A run of no steps. -/
theorem runBy_zero {s : State} (drive : State → Host.Outcome State Fault Refusal) (h : s.fault = none) :
    runBy drive 0 s = .committed s := by
  simp only [runBy, State.faulted, h, Option.isSome_none, Bool.false_eq_true, if_false]

/-- A run of one step and then the others. -/
theorem runBy_succ {s : State} (drive : State → Host.Outcome State Fault Refusal) (n : Nat) (h : s.fault = none) :
    runBy drive (n + 1) s = match drive s with
      | .next t => runBy drive n t
      | .fault _ => .noStep s
      | .refused _ => .noStep s := by
  conv => lhs; unfold runBy
  simp only [State.faulted, h, Option.isSome_none, Bool.false_eq_true, if_false]
  all_goals (cases drive s <;> rfl)

/-- The host's runner of one step and then the others (Host/Core.lean). -/
theorem core_run_succ (n : Nat) (s : State) : core.run (n + 1) s = match step s with
    | .next t => core.run n t
    | .fault r => .fault r
    | .refused r => .refused r := by
  refine (Host.Core.run.eq_2 core s n).trans ?_
  have e : core.step s = step s := rfl
  rw [e]
  all_goals (cases step s <;> rfl)

/-- A property that every step keeps holds at the end of every run. -/
theorem runBy_induct {drive : State → Host.Outcome State Fault Refusal} {P : State → Prop}
    (hstep : ∀ s t, P s → drive s = .next t → P t) (n : Nat) (s : State) (hs : P s) :
    match runBy drive n s with
    | .committed t => t.fault = none ∧ P t
    | .faulted t => t.fault.isSome = true ∧ P t
    | .noStep t => t.fault = none ∧ P t := by
  induction n generalizing s with
  | zero =>
    cases hf : s.fault with
    | none => rw [runBy_zero drive hf]; exact ⟨hf, hs⟩
    | some r => rw [runBy_of_faulted drive 0 (by rw [hf]; rfl)]; exact ⟨by rw [hf]; rfl, hs⟩
  | succ n ih =>
    cases hf : s.fault with
    | none =>
      rw [runBy_succ drive n hf]
      cases hd : drive s with
      | next t => exact ih t (hstep s t hs hd)
      | fault r => exact ⟨hf, hs⟩
      | refused r => exact ⟨hf, hs⟩
    | some r => rw [runBy_of_faulted drive _ (by rw [hf]; rfl)]; exact ⟨by rw [hf]; rfl, hs⟩

end Sys2Proof.Machine
end

