-- ==== Sys2Proof/Tests/Slice0.lean ====
section
/-! SUPPORT. The model's own tests: the well-formedness smoke, the decoding of every row from a word written out from
the encoding (30_encoding.md R81), the spec's test vectors (95_test_vectors.md), and a witness for the
hypotheses of each statement. -/

namespace Sys2Proof.Tests

open Sys2Proof.Machine

/-! The well-formedness smoke: one ill-formed term for each check. -/

theorem test_wf_refuses_mov_opcode_as_invalid : (Instr.invalid 0x41#8).wf = false := by decide

theorem test_wf_refuses_lxi_opcode_as_invalid : (Instr.invalid 0x31#8).wf = false := by decide

theorem test_wf_refuses_reserved_opcode_as_invalid : (Instr.invalid 0x76#8).wf = false := by decide

theorem test_wf_refuses_mov_with_immediate : (FullInstr.mk .movAB (some 0x1234#16)).wf = false := by decide

theorem test_wf_refuses_lxi_without_immediate : (FullInstr.mk .lxiB none).wf = false := by decide

theorem test_wf_accepts : (FullInstr.mk .lxiB (some 0x1234#16)).wf = true ∧ (FullInstr.mk .movMA none).wf = true ∧
    (FullInstr.mk (.invalid 0x00#8) none).wf = true := by decide

/-! Decoding: every row, the word written bit by bit (30_encoding.md R81, R82, R83). -/

theorem test_decode_mov_b_block : decodeOp 0b01_000_000#8 = .movBB ∧
    decodeOp 0b01_000_001#8 = .movBC ∧
    decodeOp 0b01_000_010#8 = .movBD ∧
    decodeOp 0b01_000_011#8 = .movBE ∧
    decodeOp 0b01_000_100#8 = .movBH ∧
    decodeOp 0b01_000_101#8 = .movBL ∧
    decodeOp 0b01_000_110#8 = .movBM ∧
    decodeOp 0b01_000_111#8 = .movBA := by decide

theorem test_decode_mov_c_block : decodeOp 0b01_001_000#8 = .movCB ∧
    decodeOp 0b01_001_001#8 = .movCC ∧
    decodeOp 0b01_001_010#8 = .movCD ∧
    decodeOp 0b01_001_011#8 = .movCE ∧
    decodeOp 0b01_001_100#8 = .movCH ∧
    decodeOp 0b01_001_101#8 = .movCL ∧
    decodeOp 0b01_001_110#8 = .movCM ∧
    decodeOp 0b01_001_111#8 = .movCA := by decide

theorem test_decode_mov_d_block : decodeOp 0b01_010_000#8 = .movDB ∧
    decodeOp 0b01_010_001#8 = .movDC ∧
    decodeOp 0b01_010_010#8 = .movDD ∧
    decodeOp 0b01_010_011#8 = .movDE ∧
    decodeOp 0b01_010_100#8 = .movDH ∧
    decodeOp 0b01_010_101#8 = .movDL ∧
    decodeOp 0b01_010_110#8 = .movDM ∧
    decodeOp 0b01_010_111#8 = .movDA := by decide

theorem test_decode_mov_e_block : decodeOp 0b01_011_000#8 = .movEB ∧
    decodeOp 0b01_011_001#8 = .movEC ∧
    decodeOp 0b01_011_010#8 = .movED ∧
    decodeOp 0b01_011_011#8 = .movEE ∧
    decodeOp 0b01_011_100#8 = .movEH ∧
    decodeOp 0b01_011_101#8 = .movEL ∧
    decodeOp 0b01_011_110#8 = .movEM ∧
    decodeOp 0b01_011_111#8 = .movEA := by decide

theorem test_decode_mov_h_block : decodeOp 0b01_100_000#8 = .movHB ∧
    decodeOp 0b01_100_001#8 = .movHC ∧
    decodeOp 0b01_100_010#8 = .movHD ∧
    decodeOp 0b01_100_011#8 = .movHE ∧
    decodeOp 0b01_100_100#8 = .movHH ∧
    decodeOp 0b01_100_101#8 = .movHL ∧
    decodeOp 0b01_100_110#8 = .movHM ∧
    decodeOp 0b01_100_111#8 = .movHA := by decide

theorem test_decode_mov_l_block : decodeOp 0b01_101_000#8 = .movLB ∧
    decodeOp 0b01_101_001#8 = .movLC ∧
    decodeOp 0b01_101_010#8 = .movLD ∧
    decodeOp 0b01_101_011#8 = .movLE ∧
    decodeOp 0b01_101_100#8 = .movLH ∧
    decodeOp 0b01_101_101#8 = .movLL ∧
    decodeOp 0b01_101_110#8 = .movLM ∧
    decodeOp 0b01_101_111#8 = .movLA := by decide

theorem test_decode_mov_m_block : decodeOp 0b01_110_000#8 = .movMB ∧
    decodeOp 0b01_110_001#8 = .movMC ∧
    decodeOp 0b01_110_010#8 = .movMD ∧
    decodeOp 0b01_110_011#8 = .movME ∧
    decodeOp 0b01_110_100#8 = .movMH ∧
    decodeOp 0b01_110_101#8 = .movML ∧
    decodeOp 0b01_110_111#8 = .movMA := by decide

theorem test_decode_mov_a_block : decodeOp 0b01_111_000#8 = .movAB ∧
    decodeOp 0b01_111_001#8 = .movAC ∧
    decodeOp 0b01_111_010#8 = .movAD ∧
    decodeOp 0b01_111_011#8 = .movAE ∧
    decodeOp 0b01_111_100#8 = .movAH ∧
    decodeOp 0b01_111_101#8 = .movAL ∧
    decodeOp 0b01_111_110#8 = .movAM ∧
    decodeOp 0b01_111_111#8 = .movAA := by decide

theorem test_decode_lxi : decodeOp 0b00_00_0001#8 = .lxiB ∧ decodeOp 0b00_01_0001#8 = .lxiD ∧
    decodeOp 0b00_10_0001#8 = .lxiH ∧ decodeOp 0b00_11_0001#8 = .lxiSP := by decide

theorem test_decode_reserved : decodeOp 0b01_110_110#8 = .reservedMovMM := by decide

/-- 95_test_vectors.md V4 to V9. -/
theorem test_decode_invalid : decodeOp 0x00#8 = .invalid 0x00#8 ∧ decodeOp 0x02#8 = .invalid 0x02#8 ∧
    decodeOp 0x3F#8 = .invalid 0x3F#8 ∧ decodeOp 0x80#8 = .invalid 0x80#8 ∧
    decodeOp 0xC3#8 = .invalid 0xC3#8 ∧ decodeOp 0xFF#8 = .invalid 0xFF#8 := by decide

/-- The bytes of P2's first instruction, LXI H,0x2000 (95_test_vectors.md section 3). -/
theorem test_decode_bytes_lxi :
    decodeBytes [0x21#8, 0x00#8, 0x20#8, 0x7E#8] = .ok (⟨.lxiH, some 0x2000#16⟩, [0x7E#8]) := rfl

theorem test_decode_bytes_truncated : decodeBytes [0x21#8, 0x00#8] = .error (.truncatedOperand 0x21#8) := rfl

theorem test_decode_bytes_empty : decodeBytes [] = .error .noOpcode := rfl

/-- The bytes of P4's instruction, LXI SP,0xBEEF (95_test_vectors.md section 3). -/
theorem test_encode_lxi_sp : encode ⟨.lxiSP, some 0xBEEF#16⟩ = [0x31#8, 0xEF#8, 0xBE#8] := by decide

theorem test_table_word : decodeTableWord 8 0x78 = some .movAB ∧ decodeTableWord 24 0x123401 = some .lxiB ∧
    decodeTableWord 8 0x31 = some .lxiSP ∧ decodeTableWord 8 0x76 = some .reservedMovMM := by decide

/-! The spec's vectors (95_test_vectors.md sections 1 and 2). -/

/-- `lxiPreset` of 95_test_vectors.md section 2.3, at a given PC. -/
def lxiAt (pc : Word16) : State :=
  { State.reset with pc := pc, mem := [(0x0000, 0x33#8), (0xCAFE, 0xAB#8), (0xCAFF, 0xCD#8), (0xFFFE, 0x11#8), (0xFFFF, 0x22#8)] }

/-- `movPreset` with bytes stored at PC. -/
def placed (bytes : List Byte) : State := storeBytes 0x0100#16 bytes movPreset

/-- A state whose error outcome has happened (S7). -/
def latched : State := { movPreset with fault := some ⟨0x01#8, 0x00#8, 0x0100#16, .mov⟩ }

theorem test_S2 : executeMov 0x77#8 { State.reset with l := 0xFF#8, a := 0x42#8 } =
    .next { State.reset with l := 0xFF#8, a := 0x42#8, mem := [(0x00FF, 0x42#8)], cyc := 7#64 } := rfl

theorem test_S3 : executeMov 0x46#8 { State.reset with h := 0x02#8, l := 0x34#8, mem := [(0x0234, 0xFF#8)] } =
    .next { State.reset with h := 0x02#8, l := 0x34#8, mem := [(0x0234, 0xFF#8)], b := 0xFF#8, cyc := 7#64 } := rfl

theorem test_S7 : executeMov 0x00#8 movPreset = .next latched ∧
    replyWith costs .mov 0x00#8 movPreset = some (.err 0x00#8 0x0100#16) := ⟨rfl, rfl⟩

theorem test_S8 : executeMov 0x76#8 movPreset =
    .next { movPreset with fault := some ⟨0x01#8, 0x76#8, 0x0100#16, .mov⟩ } := rfl

theorem test_M1 : executeMov 0x7E#8 { State.reset with h := 0xFF#8, l := 0xFF#8, mem := [(0xFFFF, 0x77#8)] } =
    .next { State.reset with h := 0xFF#8, l := 0xFF#8, mem := [(0xFFFF, 0x77#8)], a := 0x77#8, cyc := 7#64 } := rfl

theorem test_M2 : executeMov 0x70#8 { State.reset with b := 0x99#8 } =
    .next { State.reset with b := 0x99#8, mem := [(0x0000, 0x99#8)], cyc := 7#64 } := rfl

theorem test_M8 : executeMov 0x78#8 { movPreset with f := 0xD7#8 } =
    .next { movPreset with f := 0xD7#8, a := 0xB2#8, cyc := 5#64 } := rfl

theorem test_X2 : executeLxi 0x01#8 (lxiAt 0xFFFF#16) =
    .next { lxiAt 0x0001#16 with c := 0x22#8, b := 0x33#8, cyc := 10#64 } := rfl

theorem test_X3 : executeLxi 0x01#8 (lxiAt 0xFFFE#16) =
    .next { lxiAt 0x0000#16 with c := 0x11#8, b := 0x22#8, cyc := 10#64 } := rfl

theorem test_X6 : executeLxi 0x11#8 (lxiAt 0xFFFE#16) =
    .next { lxiAt 0x0000#16 with e := 0x11#8, d := 0x22#8, cyc := 10#64 } := rfl

theorem test_X8 : executeLxi 0x21#8 (lxiAt 0xFFFF#16) =
    .next { lxiAt 0x0001#16 with l := 0x22#8, h := 0x33#8, cyc := 10#64 } := rfl

theorem test_X11 : executeLxi 0x31#8 (lxiAt 0xFFFF#16) =
    .next { lxiAt 0x0001#16 with sp := 0x3322#16, cyc := 10#64 } := rfl

theorem test_V1 : executeMov 0x21#8 movPreset =
    .next { movPreset with fault := some ⟨0x01#8, 0x21#8, 0x0100#16, .mov⟩ } := rfl

theorem test_V2 : executeLxi 0x41#8 movPreset =
    .next { movPreset with fault := some ⟨0x01#8, 0x41#8, 0x0100#16, .lxi⟩ } := rfl

theorem test_V11 : executeAny 0x78#8 latched = .fault .faultLatched ∧ replyWith costs .any 0x78#8 latched = none :=
  ⟨rfl, rfl⟩

theorem test_V12 : executeAny 0x78#8 { movPreset with cyc := 18446744073709551610#64 } =
    .next { movPreset with a := 0xB2#8, cyc := 18446744073709551615#64 } := rfl

theorem test_V13 : executeAny 0x78#8 { movPreset with cyc := 18446744073709551615#64 } = .fault .cycLimit := rfl

theorem test_V14 : executeAny 0x46#8 { movPreset with cyc := 18446744073709551608#64 } =
    .next { movPreset with b := 0x5A#8, cyc := 18446744073709551615#64 } := rfl

theorem test_H2 : executeAny 0x7E#8 State.reset = .next { State.reset with cyc := 7#64 } := rfl

theorem test_H3 : step State.reset =
    .next { State.reset with pc := 0x0001#16, fault := some ⟨0x01#8, 0x00#8, 0x0001#16, .any⟩ } := rfl

/-- P1, step 1. -/
theorem test_P1_first_step : step (storeBytes 0x0000#16 [0x01#8, 0x34#8, 0x12#8] State.reset) =
    .next { storeBytes 0x0000#16 [0x01#8, 0x34#8, 0x12#8] State.reset with
      b := 0x12#8, c := 0x34#8, pc := 0x0003#16, cyc := 10#64 } := rfl

/-- P4, step 1: the operand bytes at 0xFFFE and 0xFFFF. -/
theorem test_P4_first_step :
    step { storeBytes 0xFFFD#16 [0x31#8, 0xEF#8, 0xBE#8] State.reset with pc := 0xFFFD#16 } =
    .next { storeBytes 0xFFFD#16 [0x31#8, 0xEF#8, 0xBE#8] State.reset with
      sp := 0xBEEF#16, pc := 0x0000#16, cyc := 10#64 } := rfl

/-- A word of the opcode table runs as the first instruction after reset (the host's probe). -/
theorem test_first_after_reset : step (State.reset.withFetchWord 8 0x78) =
    .next { State.reset.withFetchWord 8 0x78 with pc := 0x0001#16, cyc := 5#64 } := rfl

/-- Storing 0x00 removes the entry: the canonical form. -/
theorem test_store_zero_removes : (memWrite 0x1234#16 0x00#8 movPreset).mem = [] := by decide

theorem test_port_write_reads_back :
    portRead (.mem 0xFFFF#16) (portWrite (.mem 0xFFFF#16 0x7F#8) movPreset) = .u8 0x7F#8 := by decide

theorem test_signals : signals costs 0x46#8 = ⟨.mov, 0b000#3, 0b110#3, 0b00#2, true, false, 1#2, 7#64⟩ ∧
    signals costs 0x21#8 = ⟨.lxi, 0b100#3, 0b001#3, 0b10#2, false, false, 3#2, 10#64⟩ ∧
    signals costs 0x76#8 = ⟨.invalid, 0b110#3, 0b110#3, 0b11#2, false, false, 0#2, 0#64⟩ := by decide

/-! Witnesses: a concrete state and operands that meet the hypotheses of each statement. -/

theorem witness_DecodeOfEncodeIsTheInstruction : (FullInstr.mk .lxiSP (some 0xFFFF#16)).wf = true ∧
    (FullInstr.mk .movAA none).wf = true ∧ (FullInstr.mk (.invalid 0xFF#8) none).wf = true := by decide

theorem witness_EncodeOfDecodeIsTheBytes :
    decodeBytes [0x01#8, 0xFF#8, 0xFF#8] = .ok (⟨.lxiB, some 0xFFFF#16⟩, []) ∧
    decodeBytes [0x7F#8] = .ok (⟨.movAA, none⟩, []) := ⟨rfl, rfl⟩

/-- Each clause of the rules of the MOVs into B, with CYC at the top of its range. -/
theorem witness_MovIntoBFollowsItsRules : Ready 7 { movPreset with cyc := 18446744073709551608#64 } ∧
    Ready 5 { movPreset with cyc := 18446744073709551610#64 } ∧ Sel.mov ≠ Sel.lxi ∧ Sel.any ≠ Sel.lxi ∧
    movPreset.fault = none := by decide

/-- Each clause of the rules of the MOVs into C, with CYC at the top of its range. -/
theorem witness_MovIntoCFollowsItsRules : Ready 7 { movPreset with cyc := 18446744073709551608#64 } ∧
    Ready 5 { movPreset with cyc := 18446744073709551610#64 } ∧ Sel.mov ≠ Sel.lxi ∧ Sel.any ≠ Sel.lxi ∧
    movPreset.fault = none := by decide

/-- Each clause of the rules of the MOVs into D, with CYC at the top of its range. -/
theorem witness_MovIntoDFollowsItsRules : Ready 7 { movPreset with cyc := 18446744073709551608#64 } ∧
    Ready 5 { movPreset with cyc := 18446744073709551610#64 } ∧ Sel.mov ≠ Sel.lxi ∧ Sel.any ≠ Sel.lxi ∧
    movPreset.fault = none := by decide

/-- Each clause of the rules of the MOVs into E, with CYC at the top of its range. -/
theorem witness_MovIntoEFollowsItsRules : Ready 7 { movPreset with cyc := 18446744073709551608#64 } ∧
    Ready 5 { movPreset with cyc := 18446744073709551610#64 } ∧ Sel.mov ≠ Sel.lxi ∧ Sel.any ≠ Sel.lxi ∧
    movPreset.fault = none := by decide

/-- Each clause of the rules of the MOVs into H, with CYC at the top of its range. -/
theorem witness_MovIntoHFollowsItsRules : Ready 7 { movPreset with cyc := 18446744073709551608#64 } ∧
    Ready 5 { movPreset with cyc := 18446744073709551610#64 } ∧ Sel.mov ≠ Sel.lxi ∧ Sel.any ≠ Sel.lxi ∧
    movPreset.fault = none := by decide

/-- Each clause of the rules of the MOVs into L, with CYC at the top of its range. -/
theorem witness_MovIntoLFollowsItsRules : Ready 7 { movPreset with cyc := 18446744073709551608#64 } ∧
    Ready 5 { movPreset with cyc := 18446744073709551610#64 } ∧ Sel.mov ≠ Sel.lxi ∧ Sel.any ≠ Sel.lxi ∧
    movPreset.fault = none := by decide

/-- Each clause of the rules of the MOVs into memory, with CYC at the top of its range. -/
theorem witness_MovIntoMemoryFollowsItsRules : Ready 7 { movPreset with cyc := 18446744073709551608#64 } ∧
    Ready 5 { movPreset with cyc := 18446744073709551610#64 } ∧ Sel.mov ≠ Sel.lxi ∧ Sel.any ≠ Sel.lxi ∧
    movPreset.fault = none := by decide

/-- Each clause of the rules of the MOVs into A, with CYC at the top of its range. -/
theorem witness_MovIntoAFollowsItsRules : Ready 7 { movPreset with cyc := 18446744073709551608#64 } ∧
    Ready 5 { movPreset with cyc := 18446744073709551610#64 } ∧ Sel.mov ≠ Sel.lxi ∧ Sel.any ≠ Sel.lxi ∧
    movPreset.fault = none := by decide

theorem witness_RegisterToRegisterMovForm : Sel.any ≠ Sel.lxi ∧ Ready (Costs.mk 4 0 0).movBase movPreset ∧ Reg.c ≠ Reg.b :=
  by decide

theorem witness_MemoryToRegisterMovForm : Sel.mov ≠ Sel.lxi ∧
    Ready ((Costs.mk 4 3 0).movBase + (Costs.mk 4 3 0).movMemSurcharge) movPreset ∧ Reg.l ≠ Reg.h := by decide

theorem witness_RegisterToMemoryMovForm : Sel.mov ≠ Sel.lxi ∧
    Ready ((Costs.mk 4 3 0).movBase + (Costs.mk 4 3 0).movMemSurcharge) { movPreset with pc := 0x1234#16 } ∧
    ({ movPreset with pc := 0x1234#16 } : State).pc = movPreset.h ++ movPreset.l := by decide

theorem witness_LxiBcLoadsTheOperandBytes : Ready 10 { lxiPreset with cyc := 18446744073709551605#64 } ∧ Sel.lxi ≠ Sel.mov ∧
    Sel.any ≠ Sel.mov ∧ Ready (Costs.mk 5 2 12).lxi lxiPreset ∧ (lxiAt 0xFFFF#16).pc = 0xFFFF#16 ∧
    (lxiAt 0xFFFE#16).pc = 0xFFFE#16 := by decide

theorem witness_LxiDeLoadsTheOperandBytes : Ready 10 { lxiPreset with cyc := 18446744073709551605#64 } ∧ Sel.lxi ≠ Sel.mov ∧
    Sel.any ≠ Sel.mov ∧ Ready (Costs.mk 5 2 12).lxi lxiPreset ∧ (lxiAt 0xFFFF#16).pc = 0xFFFF#16 ∧
    (lxiAt 0xFFFE#16).pc = 0xFFFE#16 := by decide

theorem witness_LxiHlLoadsTheOperandBytes : Ready 10 { lxiPreset with cyc := 18446744073709551605#64 } ∧ Sel.lxi ≠ Sel.mov ∧
    Sel.any ≠ Sel.mov ∧ Ready (Costs.mk 5 2 12).lxi lxiPreset ∧ (lxiAt 0xFFFF#16).pc = 0xFFFF#16 ∧
    (lxiAt 0xFFFE#16).pc = 0xFFFE#16 := by decide

theorem witness_LxiSpLoadsTheOperandWord : Ready 10 { lxiPreset with cyc := 18446744073709551605#64 } ∧ Sel.lxi ≠ Sel.mov ∧
    Sel.any ≠ Sel.mov ∧ Ready (Costs.mk 5 2 12).lxi lxiPreset ∧ (lxiAt 0xFFFF#16).pc = 0xFFFF#16 ∧
    (lxiAt 0xFFFE#16).pc = 0xFFFE#16 := by decide

theorem witness_EveryLxiConsumesTwoOperandBytes : Sel.lxi ≠ Sel.mov ∧ Ready (Costs.mk 5 2 10).lxi (lxiAt 0xFFFF#16) ∧
    (lxiAt 0xFFFF#16).pc = 0xFFFF#16 ∧ Ready (Costs.mk 5 2 10).lxi (lxiAt 0xFFFE#16) ∧
    (lxiAt 0xFFFE#16).pc = 0xFFFE#16 ∧ Rp.bc ≠ Rp.sp ∧ Reg.a ∉ targetRegs .bc := by decide

theorem witness_MovIntoRegisterFrame : Instr.movAB.decoded = .movRegReg .a .b ∧
    exec .movAB movPreset = .next { movPreset with a := 0xB2#8, cyc := 5#64 } ∧
    Instr.movHM.decoded = .movRegMem .h ∧
    exec .movHM movPreset = .next { movPreset with h := 0x5A#8, cyc := 7#64 } := ⟨rfl, rfl, rfl, rfl⟩

theorem witness_MovIntoMemoryFrame : Instr.movMH.decoded = .movMemReg .h ∧
    exec .movMH movPreset = .next { movPreset with mem := [(0x1234, 0x12#8)], cyc := 7#64 } := ⟨rfl, rfl⟩

theorem witness_LxiFrame : Instr.lxiSP.decoded = .lxi .sp ∧ exec .lxiSP (lxiAt 0xFFFF#16) =
    .next { lxiAt 0x0001#16 with sp := 0x3322#16, cyc := 10#64 } ∧ Instr.lxiB.decoded = .lxi .bc ∧
    exec .lxiB (lxiAt 0xFFFF#16) = .next { lxiAt 0x0001#16 with c := 0x22#8, b := 0x33#8, cyc := 10#64 } :=
  ⟨rfl, rfl, rfl, rfl⟩

/-- One witness for each of the three cases, and for the other clause. -/
theorem witness_ErrorOutcomeExactlyOnRejectedOpcodes : movPreset.fault = none ∧
    (isMovOpcode 0x80#8 = false ∧ isLxiOpcode 0x80#8 = false) ∧ isLxiOpcode 0x31#8 = true ∧
    isMovOpcode 0x40#8 = true ∧ rejected .any 0x7F#8 = false ∧
    executeAny 0x7F#8 movPreset = .next { movPreset with cyc := 5#64 } := ⟨rfl, by decide, rfl, rfl, rfl, rfl⟩

/-- One witness for each of the four clauses, at the boundary of CYC. -/
theorem witness_TestsAreTakenInOrder : latched.fault.isSome = true ∧
    rejected .lxi 0x40#8 = true ∧ rejected .any 0x46#8 = false ∧
    2 ^ 64 - 1 < ({ movPreset with cyc := 18446744073709551609#64 } : State).cyc.toNat + opcodeCost costs 0x46#8 ∧
    ({ movPreset with cyc := 18446744073709551608#64 } : State).cyc.toNat + opcodeCost costs 0x46#8 ≤ 2 ^ 64 - 1 :=
  by decide

theorem witness_FaultedBlockHasNoStep : latched.fault.isSome = true := by decide

theorem witness_CycSumIsExactOrThereIsNoStep : movPreset.fault = none ∧ rejected .any 0x31#8 = false ∧
    2 ^ 64 - 1 < ({ movPreset with cyc := 18446744073709551606#64 } : State).cyc.toNat + opcodeCost costs 0x31#8 ∧
    ({ movPreset with cyc := 18446744073709551605#64 } : State).cyc.toNat + opcodeCost costs 0x31#8 ≤ 2 ^ 64 - 1 :=
  by decide

theorem witness_ReservedOpcodeIsInvalid : movPreset.fault = none := by decide

theorem witness_OtherInvalidOpcodesTakeTheError : isMovOpcode 0x3F#8 = false ∧ isLxiOpcode 0x3F#8 = false ∧
    isMovOpcode 0x76#8 = false ∧ isLxiOpcode 0x76#8 = false ∧
    isMovOpcode 0x80#8 = false ∧ isLxiOpcode 0x80#8 = false ∧ (0x80#8 : Byte) ≠ 0x76#8 ∧ movPreset.fault = none := by
  decide

theorem witness_StoreThenReadGivesTheStoredByte : (0xFFFF#16 : Word16) ≠ 0x0000#16 := by decide

theorem witness_EqualReadsMeanEqualMemory : Memory.wf movPreset.mem ∧
    ∀ x : Word16, Memory.read movPreset.mem x.toNat = Memory.read movPreset.mem x.toNat := ⟨by decide, fun _ => rfl⟩

theorem witness_AddressPointerPrimitives : ptrValue .sp { movPreset with sp := 0xFFFF#16 } = 0xFFFF#16 ∧
    (0x0000#16 : Word16) ≠ ptrValue .sp { movPreset with sp := 0xFFFF#16 } := by decide

theorem witness_StepRunsTheDecodedInstruction : decodeBytes [memRead 0x0100#16 (placed [0x31#8, 0xEF#8, 0xBE#8]),
    memRead 0x0101#16 (placed [0x31#8, 0xEF#8, 0xBE#8]), memRead 0x0102#16 (placed [0x31#8, 0xEF#8, 0xBE#8])] =
    .ok (⟨.lxiSP, some 0xBEEF#16⟩, []) := rfl

/-- One witness for each case: the error, no step, and a commit. -/
theorem witness_DriverStepIsFetchIncrementExecute : movPreset.fault = none ∧
    rejected .any (memRead movPreset.pc movPreset) = true ∧
    executeWith costs .any 0x00#8 { latched with pc := latched.pc + 1#16 } = .fault .faultLatched ∧
    driverStepWith costs (placed [0x78#8]) =
      .next { placed [0x78#8] with a := 0xB2#8, pc := 0x0101#16, cyc := 5#64 } := ⟨rfl, rfl, rfl, rfl⟩

theorem witness_StepKeepsTheInvariant : (placed [0x77#8]).Inv ∧ step (placed [0x77#8]) =
    .next { placed [0x77#8] with mem := [(0x0100, 0x77#8), (0x1234, 0xA1#8)], pc := 0x0101#16, cyc := 7#64 } :=
  ⟨by decide, rfl⟩

theorem witness_TransactionsAndHostWritesKeepTheInvariant : latched.Inv ∧ movPreset.Inv ∧
    executeMov 0x00#8 movPreset = .next latched := ⟨by decide, by decide, rfl⟩

theorem witness_NothingReadsOrWritesF : executeLxi 0x21#8 (lxiAt 0xFFFE#16) =
    .next { lxiAt 0x0000#16 with l := 0x11#8, h := 0x22#8, cyc := 10#64 } ∧
    exec .movAB movPreset = .next { movPreset with a := 0xB2#8, cyc := 5#64 } := ⟨rfl, rfl⟩

theorem witness_OnlyLxiSpWritesSp : step (placed [0x31#8, 0xEF#8, 0xBE#8]) =
    .next { placed [0x31#8, 0xEF#8, 0xBE#8] with sp := 0xBEEF#16, pc := 0x0103#16, cyc := 10#64 } ∧
    (0xBEEF#16 : Word16) ≠ (placed [0x31#8, 0xEF#8, 0xBE#8]).sp ∧ memRead 0x0100#16 (placed [0x78#8]) ≠ 0x31#8 :=
  ⟨rfl, by decide, by decide⟩

theorem witness_MemoryChangesOnlyAtHlByAStore : step (placed [0x77#8]) =
    .next { placed [0x77#8] with mem := [(0x0100, 0x77#8), (0x1234, 0xA1#8)], pc := 0x0101#16, cyc := 7#64 } ∧
    memRead 0x1234#16 { placed [0x77#8] with mem := [(0x0100, 0x77#8), (0x1234, 0xA1#8)] } ≠
      memRead 0x1234#16 (placed [0x77#8]) := ⟨rfl, by decide⟩

theorem witness_RegisterChangesOnlyAsADestination : step (placed [0x78#8]) =
    .next { placed [0x78#8] with a := 0xB2#8, pc := 0x0101#16, cyc := 5#64 } ∧
    (0xB2#8 : Byte) ≠ readReg .a (placed [0x78#8]) ∧ step (placed [0x21#8, 0xEF#8, 0xBE#8]) =
    .next { placed [0x21#8, 0xEF#8, 0xBE#8] with h := 0xBE#8, l := 0xEF#8, pc := 0x0103#16, cyc := 10#64 } :=
  ⟨rfl, by decide, rfl⟩

/-- A commit of each family and an error: each clause of the PC rule, at the top of the address space. -/
theorem witness_PcMovesOnlyByOperandBytes : executeLxi 0x01#8 (lxiAt 0xFFFF#16) =
    .next { lxiAt 0x0001#16 with c := 0x22#8, b := 0x33#8, cyc := 10#64 } ∧
    executeMov 0x01#8 (lxiAt 0xFFFF#16) =
      .next { lxiAt 0xFFFF#16 with fault := some ⟨0x01#8, 0x01#8, 0xFFFF#16, .mov⟩ } ∧
    step (placed [0x78#8]) = .next { placed [0x78#8] with a := 0xB2#8, pc := 0x0101#16, cyc := 5#64 } :=
  ⟨rfl, rfl, rfl⟩

theorem witness_CycCountsCommittedCostsOnly : executeAny 0x78#8 { movPreset with cyc := 18446744073709551610#64 } =
    .next { movPreset with a := 0xB2#8, cyc := 18446744073709551615#64 } ∧ movPreset.fault = none ∧
    executeMov 0x00#8 movPreset = .next latched ∧ latched.fault.isSome = true := ⟨rfl, rfl, rfl, rfl⟩

theorem witness_OnlyConstructionClearsFault : executeMov 0x00#8 movPreset = .next latched ∧
    exec (.invalid 0x00#8) movPreset = .next { movPreset with fault := some ⟨0x01#8, 0x00#8, 0x0100#16, .any⟩ } ∧
    step (placed [0x78#8]) = .next { placed [0x78#8] with a := 0xB2#8, pc := 0x0101#16, cyc := 5#64 } :=
  ⟨rfl, rfl, rfl⟩

/-- MOV M,A with HL at the next opcode; then with HL at the low operand byte of an LXI SP. -/
theorem witness_StoreIsSeenByTheNextFetch :
    (memRead 0x0100#16 { placed [0x77#8] with h := 0x01#8, l := 0x01#8 } = movWord memCode (regCode .a) ∧
      (0x01#8 ++ 0x01#8 : Word16) = movPreset.pc + 1#16 ∧
      step { placed [0x77#8] with h := 0x01#8, l := 0x01#8 } =
        .next { placed [0x77#8, 0xA1#8] with h := 0x01#8, l := 0x01#8, pc := 0x0101#16, cyc := 7#64 }) ∧
    (memRead 0x0101#16 (placed [0x77#8, 0x31#8]) = 0x31#8 ∧
      (0x01#8 ++ 0x02#8 : Word16) = movPreset.pc + 2#16 ∧
      step { placed [0x77#8, 0x31#8] with h := 0x01#8, l := 0x02#8 } =
        .next { placed [0x77#8, 0x31#8, 0xA1#8] with h := 0x01#8, l := 0x02#8, pc := 0x0101#16, cyc := 7#64 } ∧
      step { placed [0x77#8, 0x31#8, 0xA1#8] with h := 0x01#8, l := 0x02#8, pc := 0x0101#16, cyc := 7#64 } =
        .next { placed [0x77#8, 0x31#8, 0xA1#8] with
          h := 0x01#8, l := 0x02#8, sp := 0x00A1#16, pc := 0x0104#16, cyc := 17#64 }) :=
  ⟨⟨rfl, rfl, rfl⟩, rfl, rfl, rfl, rfl⟩

theorem witness_ExecIsTheUnifiedDispatcher : isMovOpcode 0x40#8 = true ∧ isMovOpcode 0x7F#8 = true ∧
    isLxiOpcode 0x01#8 = true ∧ isLxiOpcode 0x31#8 = true := by decide

theorem witness_LxiStepLoadsItsEncodedImmediate : Ready 10 (placed [0x11#8, 0xFF#8, 0xFF#8]) ∧
    [memRead 0x0100#16 (placed [0x11#8, 0xFF#8, 0xFF#8]), memRead 0x0101#16 (placed [0x11#8, 0xFF#8, 0xFF#8]),
      memRead 0x0102#16 (placed [0x11#8, 0xFF#8, 0xFF#8])] = encode ⟨lxiInstr .de, some 0xFFFF#16⟩ := by decide

theorem witness_PlacedWordIsTheOneRun : (0x0103#16 : Word16) ≠ movPreset.pc ∧ (0x0103#16 : Word16) ≠ movPreset.pc + 1#16 ∧
    (0x0103#16 : Word16) ≠ movPreset.pc + 2#16 := by decide

theorem witness_InvalidTermsTakeTheErrorTheyCarry : movPreset.fault = none ∧ (Instr.invalid 0x41#8).wf = false ∧
    (Instr.invalid 0x3F#8).wf = true := by decide

/-- P4 of 95_test_vectors.md section 3: its end after one step, and its faulted state after two. -/
def p4Start : State :=
  { State.reset with pc := 0xFFFD#16, mem := [(0x0000, 0x76#8), (0xFFFD, 0x31#8), (0xFFFE, 0xEF#8), (0xFFFF, 0xBE#8)] }

theorem test_P4_end_after_one_step :
    run 1 p4Start = .committed { p4Start with sp := 0xBEEF#16, pc := 0x0000#16, cyc := 10#64 } := rfl

theorem test_P4_faulted_end : run 2 p4Start = .faulted { p4Start with
    sp := 0xBEEF#16, pc := 0x0001#16, cyc := 10#64, fault := some ⟨0x01#8, 0x76#8, 0x0001#16, .any⟩ } := rfl

/-- `p4Start` without room in CYC for one LXI. -/
def fullCounter : State := { p4Start with cyc := 18446744073709551606#64 }

theorem witness_RunEndsAfterItsStepsOrAtTheFirstError : p4Start.fault = none ∧
    runWith costs 0 p4Start = .committed p4Start ∧
    runWith costs 2 p4Start = .faulted { p4Start with
      sp := 0xBEEF#16, pc := 0x0001#16, cyc := 10#64, fault := some ⟨0x01#8, 0x76#8, 0x0001#16, .any⟩ } :=
  ⟨rfl, rfl, rfl⟩

theorem witness_RunsOutsideTheTwoEndsAreNamedApart : latched.fault.isSome = true ∧
    runWith costs 0 latched = .faulted latched ∧ runWith costs 1 fullCounter = .noStep fullCounter ∧
    runWith costs 0 fullCounter = .committed fullCounter := ⟨rfl, rfl, rfl, rfl⟩

theorem witness_DriverStepCommitsOrRecordsTheError :
    driverStepWith costs p4Start = .next { p4Start with sp := 0xBEEF#16, pc := 0x0000#16, cyc := 10#64 } ∧
    driverStepWith costs State.reset = .next { State.reset with
      pc := 0x0001#16, fault := some ⟨0x01#8, 0x00#8, 0x0001#16, .any⟩ } ∧
    driverStepWith costs fullCounter = .fault .cycLimit := ⟨rfl, rfl, rfl⟩

theorem witness_RunKeepsTheInvariantAndF : p4Start.Inv ∧
    runWith costs 1 p4Start = .committed { p4Start with sp := 0xBEEF#16, pc := 0x0000#16, cyc := 10#64 } :=
  ⟨by decide, rfl⟩

end Sys2Proof.Tests
end

/-! PROOFS. Decoding against the opcode ranges: which opcodes the family check passes and what they cost. -/

namespace Sys2Proof.Machine

/-- The MOV range is the opcodes `01DDDSSS` other than 0x76 (30_encoding.md R81, R84). -/
theorem isMovOpcode_iff (op : Byte) : isMovOpcode op = true ↔ op.extractLsb' 6 2 = 0b01#2 ∧ op ≠ 0x76#8 := by
  revert op; decide

/-- The LXI opcodes are those of the form `00RP0001` (30_encoding.md R81, R85). -/
theorem isLxiOpcode_iff (op : Byte) :
    isLxiOpcode op = true ↔ op.extractLsb' 6 2 = 0b00#2 ∧ op.extractLsb' 0 4 = 0b0001#4 := by
  revert op; decide

/-- The decoder in terms of the opcode ranges (30_encoding.md R84, R85, R91, R92). -/
theorem decodeFields_eq (op : Byte) :
    decodeFields op =
      if isMovOpcode op = true then movForm (operandOfCode (dstField op)) (operandOfCode (srcField op))
      else if isLxiOpcode op = true then .lxi (rpOfCode (rpField op))
      else .invalid := by
  simp only [decodeFields, isMovOpcode_iff, isLxiOpcode_iff]

/-- The two families share no opcode: their top bits differ. -/
theorem isLxiOpcode_of_isMovOpcode {op : Byte} (h : isMovOpcode op = true) : isLxiOpcode op = false := by
  rw [isMovOpcode_iff] at h
  rw [Bool.eq_false_iff, ne_eq, isLxiOpcode_iff, h.1]
  exact fun hl => absurd hl.1 (by decide)

theorem operandOfCode_eq_m_iff (code : BitVec 3) : operandOfCode code = .m ↔ code = memCode := by
  revert code; decide

/-- No MOV names M twice: that would be 0x76 (30_encoding.md R90). -/
theorem not_both_operands_m {op : Byte} (h : isMovOpcode op = true) :
    ¬(operandOfCode (dstField op) = .m ∧ operandOfCode (srcField op) = .m) := by
  rw [operandOfCode_eq_m_iff, operandOfCode_eq_m_iff]
  revert op; decide

/-- The surcharge is charged once, for M on either side (40_dispatch.md R106). -/
theorem costOf_movForm (k : Costs) {dst src : Operand} (h : ¬(dst = .m ∧ src = .m)) :
    costOf k (movForm dst src) = k.movBase + if dst = .m ∨ src = .m then k.movMemSurcharge else 0 := by
  match dst, src with
  | .reg _, .reg _ => simp [movForm, costOf, movCost]
  | .reg _, .m => simp [movForm, costOf, movCost]
  | .m, .reg _ => simp [movForm, costOf, movCost]
  | .m, .m => exact absurd ⟨rfl, rfl⟩ h

/-- Every MOV form but M to M passes the family check of exactly the MOV and ANY entry points
(40_dispatch.md R103). -/
theorem familyAccepts_movForm (sel : Sel) {dst src : Operand} (h : ¬(dst = .m ∧ src = .m)) :
    familyAccepts sel (movForm dst src) = (sel != .lxi) := by
  match dst, src with
  | .reg _, .reg _ => cases sel <;> rfl
  | .reg _, .m => cases sel <;> rfl
  | .m, .reg _ => cases sel <;> rfl
  | .m, .m => exact absurd ⟨rfl, rfl⟩ h

/-- The family check rejects an opcode exactly in the three cases of 60_exceptions.md R220. -/
theorem familyAccepts_decodeFields (sel : Sel) (op : Byte) :
    familyAccepts sel (decodeFields op) = !rejected sel op := by
  rw [decodeFields_eq]
  by_cases hm : isMovOpcode op = true
  · rw [if_pos hm, familyAccepts_movForm sel (not_both_operands_m hm)]
    simp [rejected, hm, isLxiOpcode_of_isMovOpcode hm, bne]
  · by_cases hl : isLxiOpcode op = true
    · rw [if_neg hm, if_pos hl]
      cases sel <;> simp [rejected, hm, hl, familyAccepts]
    · rw [if_neg hm, if_neg hl]
      simp [rejected, hm, hl, familyAccepts]

/-- An accepted opcode is a MOV or an LXI. -/
theorem isMovOpcode_or_isLxiOpcode_of_accepted {sel : Sel} {op : Byte} (h : rejected sel op = false) :
    isMovOpcode op = true ∨ isLxiOpcode op = true := by
  by_contra hn
  rw [not_or] at hn
  simp [rejected, hn] at h

/-- The cost of the decoded instruction is the cost the opcode's ranges and fields give (40_dispatch.md R106). -/
theorem costOf_decodeFields (k : Costs) {op : Byte} (h : isMovOpcode op = true ∨ isLxiOpcode op = true) :
    costOf k (decodeFields op) = opcodeCost k op := by
  by_cases hm : isMovOpcode op = true
  · rw [decodeFields_eq, if_pos hm, costOf_movForm k (not_both_operands_m hm)]
    simp [opcodeCost, isLxiOpcode_of_isMovOpcode hm, operandOfCode_eq_m_iff, dstField, srcField]
  · have hl := h.resolve_left hm
    rw [decodeFields_eq, if_neg hm, if_pos hl, opcodeCost, if_pos hl]
    rfl

/-- An accepted opcode on a block that is not faulted charges its cost and commits its staged state
(40_dispatch.md R105). -/
theorem executeWith_of_accepted (k : Costs) {sel : Sel} {op : Byte} {s : State} (hf : s.fault = none)
    (hr : rejected sel op = false) :
    executeWith k sel op s = commit (opcodeCost k op) (stageOf (decodeFields op) s) := by
  rw [executeWith_eq, accept_of_none hf, familyAccepts_decodeFields, hr,
    costOf_decodeFields k (isMovOpcode_or_isLxiOpcode_of_accepted hr)]
  rfl

/-- `exec` of the decoded opcode is EXECUTE(ANY) at the default costs (40_dispatch.md R101; log entry 1). -/
theorem exec_decodeOp (op : Byte) (s : State) : exec (decodeOp op) s = executeWith costs .any op s := by
  unfold decodeOp executeWith
  cases decodeFields op with
  | movRegReg dst src => cases dst <;> cases src <;> rfl
  | movRegMem dst => cases dst <;> rfl
  | movMemReg src => cases src <;> rfl
  | lxi rp => cases rp <;> rfl
  | invalid =>
    by_cases h : op = 0x76#8
    · subst h; rfl
    · simp only [if_neg h]; rfl

end Sys2Proof.Machine

/-! PROOFS. The cycle sum (40_dispatch.md R106, R107). -/

namespace Sys2Proof.Machine

/-- A transaction that commits with room in CYC adds its cost exactly (40_dispatch.md R107). -/
theorem executeWith_charges_exactly (k : Costs) {sel : Sel} {op : Byte} {s : State} (hf : s.fault = none)
    (hr : rejected sel op = false) (hc : s.cyc.toNat + opcodeCost k op ≤ 2 ^ 64 - 1) :
    ∃ t, executeWith k sel op s = .next t ∧ t.cyc.toNat = s.cyc.toNat + opcodeCost k op := by
  rw [← stageOf_cyc (decodeFields op) s] at hc ⊢
  exact ⟨_, (executeWith_of_accepted k hf hr).trans (commit_of_le hc), charged_toNat hc⟩

/-- An accepted opcode whose sum does not fit in CYC has no step (40_dispatch.md R107). -/
theorem executeWith_of_cyc_full (k : Costs) {sel : Sel} {op : Byte} {s : State} (hf : s.fault = none)
    (hr : rejected sel op = false) (hc : 2 ^ 64 - 1 < s.cyc.toNat + opcodeCost k op) :
    executeWith k sel op s = .fault .cycLimit := by
  rw [← stageOf_cyc (decodeFields op) s] at hc
  exact (executeWith_of_accepted k hf hr).trans (commit_of_not_le hc.not_ge)

/-- Settles O28: an accepted opcode is a commit of `opcodeCost`, whose sum is exact or has no step, and `exec` is the
ANY entry point at the default costs. -/
theorem cycSumIsExactOrThereIsNoStep : Obligations.CycSumIsExactOrThereIsNoStep := by
  unfold Obligations.CycSumIsExactOrThereIsNoStep
  refine ⟨fun k sel op s hf hr => ⟨executeWith_charges_exactly k hf hr, executeWith_of_cyc_full k hf hr⟩,
    fun op s hf hr => ?_, fun k d => ?_, rfl⟩
  · rw [exec_decodeOp]
    exact ⟨executeWith_charges_exactly costs hf hr, executeWith_of_cyc_full costs hf hr⟩
  · cases d <;> rfl

end Sys2Proof.Machine

/-! PROOFS. The state elements (10_state.md): the cycle counter, the address pointers, the register pairs and the
values construction leaves. -/

namespace Sys2Proof.Machine

/-- A transaction either commits, with no fault and the opcode's cost added to CYC, or ends in the error outcome, with
a fault and CYC as it was (10_state.md R31). -/
theorem executeWith_next_cyc {k : Costs} {sel : Sel} {op : Byte} {s t : State} (h : executeWith k sel op s = .next t) :
    (t.fault = none ∧ t.cyc.toNat = s.cyc.toNat + opcodeCost k op) ∨ (t.fault.isSome = true ∧ t.cyc = s.cyc) := by
  obtain ⟨hf, ⟨-, rfl⟩ | ⟨hacc, hc, rfl⟩⟩ := executeWith_next h
  · exact .inr ⟨rfl, rfl⟩
  · have hr : rejected sel op = false := by simpa [familyAccepts_decodeFields] using hacc
    rw [costOf_decodeFields k (isMovOpcode_or_isLxiOpcode_of_accepted hr)] at hc ⊢
    exact .inl ⟨(stageOf_fault _ s).trans hf, charged_toNat hc⟩

theorem executeWith_cyc_le {k : Costs} {sel : Sel} {op : Byte} {s t : State} (h : executeWith k sel op s = .next t) :
    s.cyc.toNat ≤ t.cyc.toNat := by
  obtain ⟨-, hc⟩ | ⟨-, hc⟩ := executeWith_next_cyc h
  · exact hc ▸ Nat.le_add_right _ _
  · exact hc ▸ le_rfl

/-- The step is EXECUTE(ANY) at the default costs on the fetched opcode, after the increment of PC
(40_dispatch.md R111). -/
theorem step_eq_executeWith (s : State) : step s = executeWith costs .any (fetchOpcode s) (consumeOpcode s) :=
  exec_decodeOp _ _

@[simp] theorem ptrIncrement_mem (p : Pointer) (s : State) : (ptrIncrement p s).mem = s.mem := ptrSet_mem _ _ _

@[simp] theorem ptrIncrement_cyc (p : Pointer) (s : State) : (ptrIncrement p s).cyc = s.cyc := ptrSet_cyc _ _ _

@[simp] theorem readReg_ptrIncrement (r : Reg) (p : Pointer) (s : State) :
    readReg r (ptrIncrement p s) = readReg r s := readReg_ptrSet _ _ _ _

/-- An increment adds 1 modulo 2^16 to its own pointer and leaves the other one (10_state.md R30). -/
theorem ptrValue_ptrIncrement (q p : Pointer) (s : State) :
    ptrValue q (ptrIncrement p s) = if q = p then ptrValue p s + 1#16 else ptrValue q s := ptrValue_ptrSet _ _ _ _

@[simp] theorem ptrValue_memWrite (q : Pointer) (x : Word16) (v : Byte) (s : State) :
    ptrValue q (memWrite x v s) = ptrValue q s := by
  cases q <;> rfl

/-- What a read gives after a store through a pointer (10_state.md R30). -/
theorem memRead_ptrStore (x : Word16) (p : Pointer) (v : Byte) (s : State) :
    memRead x (ptrStore p v s) = if x = ptrValue p s then v else memRead x s := memRead_memWrite _ _ _ _

@[simp] theorem ptrValue_ptrStore (q p : Pointer) (v : Byte) (s : State) :
    ptrValue q (ptrStore p v s) = ptrValue q s := ptrValue_memWrite _ _ _ _

/-- CYC has no host write (60_exceptions.md R233). -/
@[simp] theorem portWrite_cyc (w : PortWrite) (s : State) : (portWrite w s).cyc = s.cyc := by
  cases w with
  | reg r v => exact writeReg_cyc r v s
  | f v => exact writeF_cyc v s
  | ptr p v => exact ptrSet_cyc p v s
  | mem x v => exact memWrite_cyc x v s

/-- A pair is the concatenation of its two registers as they are now (10_state.md R24). -/
theorem pair_eq_append (hi lo : Reg) (s : State) : pair hi lo s = readReg hi s ++ readReg lo s := joinBytes_eq _ _

@[simp] theorem readReg_reset (r : Reg) : readReg r State.reset = 0x00#8 := by
  cases r <;> rfl

/-- Every byte of memory is 0x00 after construction (10_state.md R35). -/
@[simp] theorem memRead_reset (x : Word16) : memRead x State.reset = 0x00#8 := rfl

/-- Settles O45: a transaction's next state is a charged commit or an uncharged error, and a step is a transaction
after an increment of PC, which leaves CYC. -/
theorem cycCountsCommittedCostsOnly : Obligations.CycCountsCommittedCostsOnly := by
  unfold Obligations.CycCountsCommittedCostsOnly
  refine ⟨rfl, fun k sel op s t h => ?_, fun s t h => ?_, portWrite_cyc, fun s => rfl⟩
  · obtain ⟨hf, hc⟩ | ⟨hf, hc⟩ := executeWith_next_cyc h
    · exact ⟨fun _ => hc, fun hsome => by simp [hf] at hsome⟩
    · exact ⟨fun hnone => by simp [hnone] at hf, fun _ => hc⟩
  · rw [step_eq_executeWith] at h
    have hle : (consumeOpcode s).cyc.toNat ≤ t.cyc.toNat := executeWith_cyc_le h
    rwa [consumeOpcode, ptrIncrement_cyc] at hle

/-- Settles O33: a store through a pointer is a memory write at its value, and an increment sets that pointer
alone. -/
theorem addressPointerPrimitives : Obligations.AddressPointerPrimitives := by
  unfold Obligations.AddressPointerPrimitives
  intro p v s
  refine ⟨rfl, ?load_store, fun x hx => ?other_bytes, fun q => ptrValue_ptrStore q p v s,
    fun q => ptrValue_ptrIncrement q p s, fun htop => ?wrap, ptrIncrement_mem p s,
    fun r => readReg_ptrIncrement r p s⟩
  case load_store => rw [ptrLoad, ptrValue_ptrStore, memRead_ptrStore, if_pos rfl]
  case other_bytes => rw [memRead_ptrStore, if_neg hx]
  case wrap => rw [ptrValue_ptrIncrement, if_pos rfl, htop]; rfl

/-- Settles O34: a pair joins its two registers as they read now, so a register write shows in it at once. -/
theorem pairIsAViewOfTwoRegisters : Obligations.PairIsAViewOfTwoRegisters := by
  unfold Obligations.PairIsAViewOfTwoRegisters
  refine ⟨fun s => ⟨rfl, rfl, rfl, rfl⟩, fun hi lo r v s => ?_⟩
  rw [pair_eq_append, readReg_writeReg, readReg_writeReg]

/-- Settles O48: the registers and memory read 0x00, and the other elements are the fields of the reset state. -/
theorem resetValues : Obligations.ResetValues := by
  unfold Obligations.ResetValues
  exact ⟨readReg_reset, rfl, rfl, rfl, memRead_reset, rfl, rfl⟩

end Sys2Proof.Machine

/-! PROOFS. Memory access (20_memory.md R53): a store decides the byte at its address and nothing else. -/

namespace Sys2Proof.Machine

@[simp] theorem memRead_memWrite_self (x : Word16) (v : Byte) (s : State) : memRead x (memWrite x v s) = v := by
  rw [memRead_memWrite, if_pos rfl]

theorem memRead_memWrite_of_ne {x y : Word16} (h : y ≠ x) (v : Byte) (s : State) :
    memRead y (memWrite x v s) = memRead y s := by
  rw [memRead_memWrite, if_neg h]

/-- Memory is the only state element a store writes: with the old memory put back, the state is the old one
(20_memory.md R53). -/
theorem memWrite_restore_mem (x : Word16) (v : Byte) (s : State) : { memWrite x v s with mem := s.mem } = s := rfl

/-- Settles O31: the stored address reads as the byte, any other address as before, and only memory is written. -/
theorem storeThenReadGivesTheStoredByte : Obligations.StoreThenReadGivesTheStoredByte := by
  unfold Obligations.StoreThenReadGivesTheStoredByte
  intro s x v
  exact ⟨memRead_memWrite_self x v s, fun _ hy => memRead_memWrite_of_ne hy v s, memWrite_restore_mem x v s⟩

end Sys2Proof.Machine

/-! PROOFS. The INVALID opcodes (30_encoding.md R90, R91): how they decode, and the error outcome they take. -/

namespace Sys2Proof.Machine

/-- The error outcome: a rejected opcode on a block that is not faulted is recorded in FAULT, and nothing else changes
(60_exceptions.md R220). -/
theorem executeWith_of_rejected (k : Costs) {sel : Sel} {op : Byte} {s : State} (hf : s.fault = none)
    (hr : rejected sel op = true) :
    executeWith k sel op s = .next { s with fault := some ⟨0x01#8, op, s.pc, sel⟩ } := by
  rw [executeWith_eq, accept_of_none hf, familyAccepts_decodeFields, hr]
  rfl

/-- No entry point accepts an opcode of neither family (40_dispatch.md R103). -/
theorem rejected_of_neither_family (sel : Sel) {op : Byte} (hm : isMovOpcode op = false)
    (hl : isLxiOpcode op = false) : rejected sel op = true := by
  simp [rejected, hm, hl]

/-- An opcode of neither family decodes to INVALID (30_encoding.md R91). -/
theorem decodeFields_of_neither_family {op : Byte} (hm : isMovOpcode op = false) (hl : isLxiOpcode op = false) :
    decodeFields op = .invalid := by
  rw [decodeFields_eq, hm, hl, if_neg Bool.false_ne_true, if_neg Bool.false_ne_true]

/-- An opcode of neither family selects one of the two INVALID rows: 0x76 the one, the 188 others the other
(30_encoding.md R90, R91). -/
theorem decodeOp_of_neither_family {op : Byte} (hm : isMovOpcode op = false) (hl : isLxiOpcode op = false) :
    decodeOp op = if op = 0x76#8 then .reservedMovMM else .invalid op := by
  rw [decodeOp, decodeFields_of_neither_family hm hl]

/-- The instruction that an opcode of neither family selects takes the error outcome for that opcode. -/
theorem exec_of_neither_family {op : Byte} {i : Instr} {s : State} (hm : isMovOpcode op = false)
    (hl : isLxiOpcode op = false) (hi : decodeOp op = i) (hf : s.fault = none) :
    exec i s = .next { s with fault := some ⟨0x01#8, op, s.pc, .any⟩ } := by
  rw [← hi, exec_decodeOp]
  exact executeWith_of_rejected costs hf (rejected_of_neither_family .any hm hl)

/-- Settles O29: 0x76 is in neither family, so no entry point accepts it. -/
theorem reservedOpcodeIsInvalid : Obligations.ReservedOpcodeIsInvalid := by
  unfold Obligations.ReservedOpcodeIsInvalid
  have hm : isMovOpcode 0x76#8 = false := rfl
  have hl : isLxiOpcode 0x76#8 = false := rfl
  have hdec : decodeOp 0x76#8 = .reservedMovMM := decodeOp_of_neither_family hm hl
  exact ⟨decodeFields_of_neither_family hm hl, hdec,
    fun k sel _ hf => executeWith_of_rejected k hf (rejected_of_neither_family sel hm hl),
    fun _ hf => exec_of_neither_family hm hl hdec hf⟩

/-- A count over the 256 opcodes in four quarters, one for each value of `op[7:6]` (30_encoding.md R81). -/
theorem countP_range_256 (p : Nat → Bool) :
    (List.range 256).countP p = (List.range' 0 64).countP p + (List.range' 64 64).countP p +
      (List.range' 128 64).countP p + (List.range' 192 64).countP p := by
  simp only [← List.countP_append, List.range_eq_range', Nat.reduceAdd, List.range'_append_1 (s := 0) (m := 64),
    List.range'_append_1 (s := 0) (m := 128), List.range'_append_1 (s := 0) (m := 192)]

/-- The opcodes of neither family: all of `00xxxxxx` but the four LXI, 0x76 alone of `01xxxxxx`, and the whole upper
half (30_encoding.md R91). -/
theorem countP_neither_family :
    (List.range 256).countP (fun n => !isMovOpcode (BitVec.ofNat 8 n) && !isLxiOpcode (BitVec.ofNat 8 n)) =
      60 + 1 + 64 + 64 := by
  rw [countP_range_256]
  decide

/-- Settles O30: the count is over the 256 opcodes, and every opcode it counts is in neither family. -/
theorem otherInvalidOpcodesTakeTheError : Obligations.OtherInvalidOpcodesTakeTheError := by
  unfold Obligations.OtherInvalidOpcodesTakeTheError
  refine ⟨countP_neither_family, fun op hm hl => ⟨decodeFields_of_neither_family hm hl,
    fun k sel _ hf => executeWith_of_rejected k hf (rejected_of_neither_family sel hm hl), fun hne => ?other_rows⟩⟩
  case other_rows =>
    have hdec : decodeOp op = .invalid op := by rw [decodeOp_of_neither_family hm hl, if_neg hne]
    exact ⟨hdec, fun _ hf => exec_of_neither_family hm hl hdec hf⟩

end Sys2Proof.Machine


/-! PROOFS. The transaction and the driver (40_dispatch.md): no step while FAULT is latched (R102), the driver step
(R111), the moves of PC (R108) and the flags register that nothing touches (R113). -/

namespace Sys2Proof.Machine

/-- A latched block has no step for any transaction (40_dispatch.md R102). -/
theorem executeWith_of_latched (k : Costs) (sel : Sel) (op : Byte) {s : State} (h : s.fault.isSome = true) :
    executeWith k sel op s = .fault .faultLatched := by
  rw [executeWith_eq, accept_of_latched h]

/-- A latched block has no step for any instruction (40_dispatch.md R102). -/
theorem exec_of_latched (i : Instr) {s : State} (h : s.fault.isSome = true) : exec i s = .fault .faultLatched := by
  rw [exec_eq, accept_of_latched h]

/-- A transaction without a step returns nothing (40_dispatch.md R100). -/
theorem replyWith_of_fault {k : Costs} {sel : Sel} {op : Byte} {s : State} {r : Fault}
    (h : executeWith k sel op s = .fault r) : replyWith k sel op s = none := by
  rw [replyWith, h]

/-- The step is the driver step at the default costs (40_dispatch.md R111). -/
theorem step_eq_driverStepWith (s : State) : step s = driverStepWith costs s := step_eq_executeWith s

/-- Settles O27: acceptance comes before everything else a transaction, an instruction or a driver step does. -/
theorem faultedBlockHasNoStep : Obligations.FaultedBlockHasNoStep := by
  unfold Obligations.FaultedBlockHasNoStep
  intro s h
  refine ⟨fun k sel op => ?_, fun i => exec_of_latched i h, ?_⟩
  · have hx := executeWith_of_latched k sel op h
    exact ⟨hx, replyWith_of_fault hx⟩
  · rw [step_eq_driverStepWith, driverStepWith_of_latched costs h]

/-- Everything a transaction's next state can be, in terms of the opcode ranges: the uncharged error outcome of a
rejected opcode, or the charged commit of an accepted one (40_dispatch.md R103, R105). -/
theorem executeWith_next_of_opcode {k : Costs} {sel : Sel} {op : Byte} {s t : State}
    (h : executeWith k sel op s = .next t) :
    (rejected sel op = true ∧ t = latchFault (recordOf sel op s) s) ∨
      (rejected sel op = false ∧ s.cyc.toNat + opcodeCost k op ≤ 2 ^ 64 - 1 ∧
        t = setCyc (s.cyc + BitVec.ofNat 64 (opcodeCost k op)) (stageOf (decodeFields op) s)) := by
  obtain ⟨-, hcases⟩ := executeWith_next h
  rw [familyAccepts_decodeFields] at hcases
  cases hr : rejected sel op <;> simp only [hr] at hcases
  case true => simpa using hcases
  case false => simpa [costOf_decodeFields k (isMovOpcode_or_isLxiOpcode_of_accepted hr)] using hcases

/-- A transaction charges the opcode's cost exactly if its entry point accepts the opcode (40_dispatch.md R106). -/
theorem executeWith_next_cyc_eq {k : Costs} {sel : Sel} {op : Byte} {s t : State}
    (h : executeWith k sel op s = .next t) :
    t.cyc.toNat = s.cyc.toNat + if rejected sel op then 0 else opcodeCost k op := by
  obtain ⟨hr, rfl⟩ | ⟨hr, hc, rfl⟩ := executeWith_next_of_opcode h
  · simp [hr]
  · simpa [hr] using charged_toNat hc

/-- The driver step is EXECUTE(ANY) on the byte at PC, after the increment of PC (40_dispatch.md R111). -/
theorem driverStepWith_eq (k : Costs) (s : State) :
    driverStepWith k s = executeWith k .any (memRead s.pc s) { s with pc := s.pc + 1#16 } := rfl

/-- Settles O36: every clause is the one of EXECUTE(ANY) on the state with PC increased, whose other elements are
those of the old state. -/
theorem driverStepIsFetchIncrementExecute : Obligations.DriverStepIsFetchIncrementExecute := by
  unfold Obligations.DriverStepIsFetchIncrementExecute
  refine ⟨fun k s => ⟨driverStepWith_eq k s, fun hf hr => ?error, fun r h => h, fun t h => ?cyc⟩,
    step_eq_driverStepWith⟩
  case error => exact executeWith_of_rejected k (s := { s with pc := s.pc + 1#16 }) hf hr
  case cyc => exact executeWith_next_cyc_eq (s := { s with pc := s.pc + 1#16 }) h

/-- An LXI opcode is rejected by the MOV entry point alone (40_dispatch.md R103). -/
theorem rejected_of_isLxiOpcode (sel : Sel) {op : Byte} (hl : isLxiOpcode op = true) :
    rejected sel op = (sel == .mov) := by
  have hm : isMovOpcode op = false := by
    by_contra hm
    rw [isLxiOpcode_of_isMovOpcode (by simpa using hm)] at hl
    exact Bool.false_ne_true hl
  simp [rejected, hm, hl]

/-- The decoder answers an LXI for the LXI opcodes alone (30_encoding.md R85, R92). -/
theorem kindOf_decodeFields_eq_lxi_iff (op : Byte) : kindOf (decodeFields op) = .lxi ↔ isLxiOpcode op = true := by
  revert op; decide

/-- PC moves past the operand bytes an instruction consumes: two for an LXI, none for any other (40_dispatch.md
R108). -/
theorem stageOf_pc (d : Decoded) (s : State) :
    (stageOf d s).pc = if kindOf d = .lxi then s.pc + 2#16 else s.pc := by
  rw [stageOf_eq]
  cases d with
  | lxi rp => cases rp <;> rfl
  | movRegReg dst src => exact writeReg_pc _ _ _
  | movRegMem dst => exact writeReg_pc _ _ _
  | movMemReg src => rfl
  | invalid => rfl

/-- PC after a transaction: 2 higher for an LXI that its entry point accepts, unchanged otherwise (40_dispatch.md
R108). -/
theorem executeWith_next_pc {k : Costs} {sel : Sel} {op : Byte} {s t : State} (h : executeWith k sel op s = .next t) :
    t.pc = if isLxiOpcode op = true ∧ sel ≠ .mov then s.pc + 2#16 else s.pc := by
  by_cases hl : isLxiOpcode op = true
  · obtain ⟨hr, rfl⟩ | ⟨hr, -, rfl⟩ := executeWith_next_of_opcode h
    · rw [rejected_of_isLxiOpcode sel hl, beq_iff_eq] at hr
      rw [if_neg (fun hc => hc.2 hr), latchFault_pc]
    · rw [rejected_of_isLxiOpcode sel hl, beq_eq_false_iff_ne] at hr
      rw [if_pos ⟨hl, hr⟩, setCyc_pc, stageOf_pc, if_pos ((kindOf_decodeFields_eq_lxi_iff op).mpr hl)]
  · rw [if_neg (fun hc => hl hc.1)]
    obtain ⟨-, rfl⟩ | ⟨-, -, rfl⟩ := executeWith_next_of_opcode h
    · rw [latchFault_pc]
    · rw [setCyc_pc, stageOf_pc, if_neg (mt (kindOf_decodeFields_eq_lxi_iff op).mp hl)]

/-- Settles O44: a transaction moves PC by the operand bytes it consumes, and a step by one more for the opcode. -/
theorem pcMovesOnlyByOperandBytes : Obligations.PcMovesOnlyByOperandBytes := by
  unfold Obligations.PcMovesOnlyByOperandBytes
  refine ⟨fun k sel op s t h => executeWith_next_pc h, fun s t h => ?_⟩
  rw [step_eq_driverStepWith, driverStepWith_eq] at h
  have three : s.pc + 1#16 + 2#16 = s.pc + 3#16 := by rw [BitVec.add_assoc]; rfl
  simpa [three] using executeWith_next_pc h

theorem writeReg_writeF (r : Reg) (x v : Byte) (s : State) : writeReg r x (writeF v s) = writeF v (writeReg r x s) := by
  cases r <;> rfl

/-- No instruction's effect reads F (40_dispatch.md R113). -/
theorem stageOf_writeF (d : Decoded) (v : Byte) (s : State) : stageOf d (writeF v s) = writeF v (stageOf d s) := by
  cases d with
  | movRegReg dst src => simp only [stageOf_eq, readReg_writeF, writeReg_writeF]
  | movRegMem dst => simp only [stageOf_eq, memRead_writeF, writeF_h, writeF_l, writeReg_writeF]
  | movMemReg src => simp only [stageOf_eq, readReg_writeF]; rfl
  | lxi rp => cases rp <;> rfl
  | invalid => rfl

/-- Whether a transaction is accepted does not depend on F. -/
theorem accept_writeF (v : Byte) (s : State) (body : Host.Outcome State Fault Refusal) :
    accept (writeF v s) (mapNext (writeF v) body) = mapNext (writeF v) (accept s body) := by
  cases hf : s.fault with
  | none => rw [accept_of_none hf, accept_of_none (s := writeF v s) hf]
  | some r =>
    have hl : s.fault.isSome = true := by rw [hf]; rfl
    rw [accept_of_latched hl, accept_of_latched (s := writeF v s) hl]
    rfl

/-- Whether a commit has room in CYC does not depend on F. -/
theorem commit_writeF (cost : Nat) (v : Byte) (s : State) :
    commit cost (writeF v s) = mapNext (writeF v) (commit cost s) := by
  by_cases hc : s.cyc.toNat + cost ≤ 2 ^ 64 - 1
  · rw [commit_of_le hc, commit_of_le (staged := writeF v s) hc]
    rfl
  · rw [commit_of_not_le hc, commit_of_not_le (staged := writeF v s) hc]
    rfl

/-- A decoded instruction after the family check: acceptance, then the charged commit or the error outcome. -/
theorem runChecked_eq (k : Costs) (sel : Sel) (op : Byte) (d : Decoded) (s : State) :
    runChecked k sel op d s =
      accept s (if familyAccepts sel d = true then commit (costOf k d) (stageOf d s)
        else raiseInvalidOpcode sel op s) := by
  cases d <;> cases sel <;> rfl

/-- An instruction is its verdict run under the ANY entry point at the default costs (40_dispatch.md R101). -/
theorem exec_eq_runChecked (i : Instr) (s : State) : exec i s = runChecked costs .any (opcodeOf i) i.decoded s := by
  cases i <;> rfl

/-- Running from the same state with another F gives the same outcome with that other F (40_dispatch.md R113). -/
theorem runChecked_writeF (k : Costs) (sel : Sel) (op : Byte) (d : Decoded) (v : Byte) (s : State) :
    runChecked k sel op d (writeF v s) = mapNext (writeF v) (runChecked k sel op d s) := by
  rw [runChecked_eq, runChecked_eq, ← accept_writeF]
  by_cases hacc : familyAccepts sel d = true
  · rw [if_pos hacc, if_pos hacc, stageOf_writeF, commit_writeF]
  · rw [if_neg hacc, if_neg hacc]
    rfl

/-- What does not depend on F does not write it: putting the old F back changes nothing. -/
theorem f_eq_of_writeF_comm {f : State → Host.Outcome State Fault Refusal}
    (hcomm : ∀ v s, f (writeF v s) = mapNext (writeF v) (f s)) {s t : State} (h : f s = .next t) : t.f = s.f := by
  have hback : f s = mapNext (writeF s.f) (f s) := hcomm s.f s
  rw [h] at hback
  injection hback with ht
  rw [ht, writeF_f]

/-- Settles O40: acceptance, the commit and every staged effect commute with a write of F, for a transaction and an
instruction alike. -/
theorem nothingReadsOrWritesF : Obligations.NothingReadsOrWritesF := by
  unfold Obligations.NothingReadsOrWritesF
  have hexec : ∀ i v s, exec i (writeF v s) = mapNext (writeF v) (exec i s) := fun i v s => by
    rw [exec_eq_runChecked, exec_eq_runChecked, runChecked_writeF]
  exact ⟨fun k sel op s v => ⟨runChecked_writeF k sel op _ v s,
      fun t => f_eq_of_writeF_comm (f := executeWith k sel op) fun v s => runChecked_writeF k sel op _ v s⟩,
    fun i s v => ⟨hexec i v s, fun t => f_eq_of_writeF_comm (hexec i)⟩⟩

end Sys2Proof.Machine

/-! PROOFS. Runs of the reference driver (40_dispatch.md R112): the ends `runWith` computes are those of the sequences
of driver steps, with the replies read off one by one. -/

namespace Sys2Proof.Machine

/-- Driver steps lead from one state to the other, and the list is what they return in turn (40_dispatch.md R100,
R112). -/
def RepliedRun (k : Costs) : List Reply → State → State → Prop
  | [], s, t => s = t
  | r :: rs, s, t => ∃ u, driverStepWith k s = .next u ∧ driverReplyWith k s = some r ∧ RepliedRun k rs u t

theorem repliedRun_cons_of_next {k : Costs} {s u : State} (h : driverStepWith k s = .next u) (r : Reply)
    (rs : List Reply) (t : State) :
    RepliedRun k (r :: rs) s t ↔ driverReplyWith k s = some r ∧ RepliedRun k rs u t := by
  simp [RepliedRun, h]

/-- No run goes on from a state without a driver step. -/
theorem not_repliedRun_cons {k : Costs} {s : State} (h : ∀ u, driverStepWith k s ≠ .next u) (r : Reply)
    (rs : List Reply) (t : State) : ¬ RepliedRun k (r :: rs) s t :=
  fun ⟨u, hu, _⟩ => h u hu

/-- A run of one step and then the others, along its sequence of states. -/
theorem isRun_succ {drive : State → Host.Outcome State Fault Refusal} {n : Nat} {seq : Nat → State} :
    IsRun drive (n + 1) seq ↔ drive (seq 0) = .next (seq 1) ∧ IsRun drive n fun j => seq (j + 1) :=
  Nat.forall_lt_succ_left

/-- A replied run is a run in the sense of 40_dispatch.md R112, together with its replies: its sequence is
the start and then the sequence of the run after the first step. -/
theorem repliedRun_iff {k : Costs} {rs : List Reply} {s t : State} :
    RepliedRun k rs s t ↔ ∃ seq : Nat → State, seq 0 = s ∧ seq rs.length = t ∧
      IsRun (driverStepWith k) rs.length seq ∧ ∀ j, j < rs.length → driverReplyWith k (seq j) = rs[j]? := by
  induction rs generalizing s with
  | nil =>
    constructor
    · rintro rfl
      exact ⟨fun _ => s, rfl, rfl, fun j hj => absurd hj j.not_lt_zero,
        fun j hj => absurd hj j.not_lt_zero⟩
    · rintro ⟨seq, rfl, rfl, -⟩
      rfl
  | cons r rs ih =>
    constructor
    · rintro ⟨u, hstep, hreply, hrest⟩
      obtain ⟨seq, rfl, hend, hrun, hreplies⟩ := ih.mp hrest
      exact ⟨Stream'.cons s seq, rfl, hend, isRun_succ.mpr ⟨hstep, hrun⟩,
        Nat.forall_lt_succ_left.mpr ⟨hreply, hreplies⟩⟩
    · rintro ⟨seq, rfl, hend, hrun, hreplies⟩
      obtain ⟨hstep, hrun⟩ := isRun_succ.mp hrun
      obtain ⟨hreply, hreplies⟩ := Nat.forall_lt_succ_left.mp hreplies
      exact ⟨seq 1, hstep, hreply, ih.mpr ⟨_, rfl, hend, hrun, hreplies⟩⟩

/-- A run of committed steps. -/
theorem repliedRun_replicate_ok_iff {k : Costs} {n : Nat} {s t : State} :
    RepliedRun k (.replicate n .ok) s t ↔ ∃ seq : Nat → State, seq 0 = s ∧ seq n = t ∧
      IsRun (driverStepWith k) n seq ∧ ∀ j, j < n → driverReplyWith k (seq j) = some .ok := by
  have hok : ∀ seq : Nat → State,
      (∀ j, j < n → driverReplyWith k (seq j) = (List.replicate n Reply.ok)[j]?) ↔
        ∀ j, j < n → driverReplyWith k (seq j) = some .ok := fun seq =>
    forall₂_congr fun j hj => by rw [List.getElem?_replicate_of_lt hj]
  simp only [repliedRun_iff, List.length_replicate, hok]

/-- A run of committed steps and one more step with a reply of its own. -/
theorem repliedRun_replicate_ok_append_iff {k : Costs} {m : Nat} {r : Reply} {s t : State} :
    RepliedRun k (.replicate m .ok ++ [r]) s t ↔ ∃ seq : Nat → State, seq 0 = s ∧ seq (m + 1) = t ∧
      IsRun (driverStepWith k) (m + 1) seq ∧ (∀ j, j < m → driverReplyWith k (seq j) = some .ok) ∧
      driverReplyWith k (seq m) = some r := by
  have hreplies : ∀ seq : Nat → State,
      (∀ j, j < m + 1 → driverReplyWith k (seq j) = (List.replicate m Reply.ok ++ [r])[j]?) ↔
        (∀ j, j < m → driverReplyWith k (seq j) = some .ok) ∧ driverReplyWith k (seq m) = some r := fun seq => by
    rw [Nat.forall_lt_succ_right]
    refine and_congr (forall₂_congr fun j hj => ?_) ?_
    · rw [List.getElem?_append_left (by simpa using hj), List.getElem?_replicate_of_lt hj]
    · simp
  simp only [repliedRun_iff, List.length_append, List.length_replicate, List.length_singleton, hreplies]

/-- Everything a run can do first, from a start that is not faulted: commit a step and go on, end at the error its step
records, or stay where the driver has no step (40_dispatch.md R111, R112; log entry 15). -/
theorem runWith_succ_cases (k : Costs) (n : Nat) {s : State} (hf : s.fault = none) :
    (∃ u, driverStepWith k s = .next u ∧ driverReplyWith k s = some .ok ∧ u.fault = none ∧
      runWith k (n + 1) s = runWith k n u) ∨
    (∃ u op pc, driverStepWith k s = .next u ∧ driverReplyWith k s = some (.err op pc) ∧
      u.fault = some ⟨0x01#8, op, pc, .any⟩ ∧ runWith k (n + 1) s = .faulted u) ∨
    ((∀ u, driverStepWith k s ≠ .next u) ∧ runWith k (n + 1) s = .noStep s) := by
  have hsucc := runBy_succ (driverStepWith k) n hf
  cases hd : driverStepWith k s <;> simp only [hd] at hsucc
  case next u =>
    obtain ⟨-, ⟨hok, hfu, -⟩ | ⟨herr, rfl⟩⟩ := driverStepWith_next hd
    · exact .inl ⟨u, rfl, hok, hfu, hsucc⟩
    · exact .inr (.inl ⟨_, _, _, rfl, herr, rfl, hsucc.trans (runBy_of_faulted _ n rfl)⟩)
  case fault r => exact .inr (.inr ⟨by simp, hsucc⟩)
  case refused r => exact .inr (.inr ⟨by simp, hsucc⟩)

/-- The normal end of a run from a start that is not faulted (40_dispatch.md R112). -/
theorem runWith_eq_committed_iff_of_none {k : Costs} {n : Nat} {s t : State} (hf : s.fault = none) :
    runWith k n s = .committed t ↔ RepliedRun k (.replicate n .ok) s t ∧ t.fault = none := by
  induction n generalizing s with
  | zero =>
    have hrun : runWith k 0 s = .committed s := runBy_zero _ hf
    rw [hrun, RunEnd.committed.injEq]
    exact ⟨fun h => ⟨h, h ▸ hf⟩, And.left⟩
  | succ n ih =>
    rw [List.replicate_succ]
    obtain ⟨u, hstep, hreply, hfu, hrun⟩ | ⟨u, op, pc, hstep, hreply, -, hrun⟩ | ⟨hno, hrun⟩ :=
      runWith_succ_cases k n hf
    · simp [hrun, ih hfu, repliedRun_cons_of_next hstep, hreply]
    · simp [hrun, repliedRun_cons_of_next hstep, hreply]
    · simp [hrun, not_repliedRun_cons hno]

/-- A start that is faulted already has no normal end, since it has no step (40_dispatch.md R102, R112). -/
theorem not_repliedRun_of_latched {k : Costs} {rs : List Reply} {s t : State} (h : s.fault.isSome = true) :
    ¬(RepliedRun k rs s t ∧ t.fault = none) := by
  rintro ⟨hrun, hft⟩
  cases rs with
  | nil => obtain rfl : s = t := hrun; simp [hft] at h
  | cons r rs => exact not_repliedRun_cons (by simp [driverStepWith_of_latched k h]) r rs t hrun

/-- The normal end of a run: the state after its committed steps (40_dispatch.md R112). -/
theorem runWith_eq_committed_iff {k : Costs} {n : Nat} {s t : State} :
    runWith k n s = .committed t ↔ RepliedRun k (.replicate n .ok) s t ∧ t.fault = none := by
  cases hf : s.fault with
  | none => exact runWith_eq_committed_iff_of_none hf
  | some r =>
    have hl : s.fault.isSome = true := by rw [hf]; rfl
    have hrun : runWith k n s = .faulted s := runBy_of_faulted _ n hl
    simp [hrun, not_repliedRun_of_latched hl]

/-- The faulted end of a run: the state of the first recorded error (40_dispatch.md R112). -/
theorem runWith_eq_faulted_iff {k : Costs} {n : Nat} {s t : State} (hf : s.fault = none) :
    runWith k n s = .faulted t ↔ ∃ m, m < n ∧ ∃ op pc,
      RepliedRun k (.replicate m .ok ++ [.err op pc]) s t ∧ t.fault = some ⟨0x01#8, op, pc, .any⟩ := by
  induction n generalizing s with
  | zero =>
    have hrun : runWith k 0 s = .committed s := runBy_zero _ hf
    simp [hrun]
  | succ n ih =>
    simp only [Nat.exists_lt_succ_left, List.replicate_zero, List.nil_append, List.replicate_succ, List.cons_append]
    obtain ⟨u, hstep, hreply, hfu, hrun⟩ | ⟨u, op, pc, hstep, hreply, hrec, hrun⟩ | ⟨hno, hrun⟩ :=
      runWith_succ_cases k n hf
    · simp [hrun, ih hfu, repliedRun_cons_of_next hstep, hreply]
    · rw [hrun]
      constructor
      · rintro ⟨⟩
        exact .inl ⟨op, pc, (repliedRun_cons_of_next hstep _ _ _).mpr ⟨hreply, rfl⟩, hrec⟩
      · rintro (⟨_, _, h, -⟩ | ⟨m, -, _, _, h, -⟩)
        · obtain ⟨-, rfl⟩ := (repliedRun_cons_of_next hstep _ _ _).mp h
          rfl
        · simp [repliedRun_cons_of_next hstep, hreply] at h
    · simp [hrun, not_repliedRun_cons hno]

/-- A faulted end is faulted, and so it is never a normal end (40_dispatch.md R112). -/
theorem faulted_of_runWith_eq_faulted {k : Costs} {n : Nat} {s t : State} (h : runWith k n s = .faulted t) :
    t.faulted = true := by
  have hend := runBy_induct (drive := driverStepWith k) (P := fun _ => True) (fun _ _ _ _ => trivial) n s trivial
  rw [← runWith, h] at hend
  exact hend.1

/-- Settles O56: the two ends are those of a run of committed steps, and of one whose last step records the error; a
faulted end is faulted. -/
theorem runEndsAfterItsStepsOrAtTheFirstError : Obligations.RunEndsAfterItsStepsOrAtTheFirstError := by
  unfold Obligations.RunEndsAfterItsStepsOrAtTheFirstError
  intro k n s t
  refine ⟨?committed, fun hf => ?faulted, fun h => ⟨faulted_of_runWith_eq_faulted h, fun u => by simp [h]⟩⟩
  case committed =>
    rw [runWith_eq_committed_iff, repliedRun_replicate_ok_iff, ← exists_and_right]
    simp only [and_assoc]
  case faulted =>
    simp only [runWith_eq_faulted_iff hf, repliedRun_replicate_ok_append_iff]
    constructor
    · rintro ⟨m, hm, op, pc, ⟨seq, hs, ht, hrun, hok, herr⟩, hrec⟩
      exact ⟨m, seq, op, pc, hm, hs, ht, hrun, hok, herr, hrec⟩
    · rintro ⟨m, seq, op, pc, hm, hs, ht, hrun, hok, herr, hrec⟩
      exact ⟨m, hm, op, pc, ⟨seq, hs, ht, hrun, hok, herr⟩, hrec⟩

end Sys2Proof.Machine

/-! PROOFS. The MOV family (41_mov.md): how a word `01DDDSSS` decodes, what its transaction does, and from these the
rule of each of the three operand forms (R121 to R123), of which the 63 opcode rules (R130 to R192) are instances. -/

namespace Sys2Proof.Machine

@[simp] theorem operandOfCode_regCode (r : Reg) : operandOfCode (regCode r) = .reg r := by
  cases r <;> rfl

@[simp] theorem operandOfCode_memCode : operandOfCode memCode = .m := rfl

/-- A word `01DDDSSS` decodes to the form its two operand codes name, M to M being no MOV (30_encoding.md R81, R90,
R92). -/
theorem decodeFields_movWord (ddd sss : BitVec 3) :
    decodeFields (movWord ddd sss) = movForm (operandOfCode ddd) (operandOfCode sss) := by
  revert ddd sss; decide

theorem decodeFields_movRegReg (dst src : Reg) :
    decodeFields (movWord (regCode dst) (regCode src)) = .movRegReg dst src := by
  rw [decodeFields_movWord, operandOfCode_regCode, operandOfCode_regCode, movForm]

theorem decodeFields_movRegMem (dst : Reg) : decodeFields (movWord (regCode dst) memCode) = .movRegMem dst := by
  rw [decodeFields_movWord, operandOfCode_regCode, operandOfCode_memCode, movForm]

theorem decodeFields_movMemReg (src : Reg) : decodeFields (movWord memCode (regCode src)) = .movMemReg src := by
  rw [decodeFields_movWord, operandOfCode_memCode, operandOfCode_regCode, movForm]

/-- A MOV passes the family check of exactly the MOV and ANY entry points (40_dispatch.md R103). -/
theorem familyAccepts_of_kindOf_eq_mov (sel : Sel) {d : Decoded} (hd : kindOf d = .mov) :
    familyAccepts sel d = (sel != .lxi) := by
  cases d with
  | movRegReg dst src => cases sel <;> rfl
  | movRegMem dst => cases sel <;> rfl
  | movMemReg src => cases sel <;> rfl
  | lxi rp => cases hd
  | invalid => cases hd

/-- A MOV on a ready block commits its staged state with its cost added (40_dispatch.md R105, R107). -/
theorem executeWith_of_mov (k : Costs) {sel : Sel} {op : Byte} {d : Decoded} {s : State} (hop : decodeFields op = d)
    (hd : kindOf d = .mov) (hsel : sel ≠ .lxi) (hs : Ready (costOf k d) s) :
    executeWith k sel op s = .next (setCyc (s.cyc + BitVec.ofNat 64 (costOf k d)) (stageOf d s)) := by
  obtain ⟨hf, hc⟩ := hs
  have hacc : familyAccepts sel d = true := by simpa [familyAccepts_of_kindOf_eq_mov sel hd] using hsel
  rw [← stageOf_cyc d s] at hc ⊢
  rw [executeWith_eq, accept_of_none hf, hop, if_pos hacc, commit_of_le hc]

/-- execute_lxi rejects a MOV (60_exceptions.md R220). -/
theorem executeWith_lxi_of_mov (k : Costs) {op : Byte} {s : State} (hop : kindOf (decodeFields op) = .mov)
    (hf : s.fault = none) :
    executeWith k .lxi op s = .next { s with fault := some (recordOf .lxi op s) } := by
  have hacc : familyAccepts .lxi (decodeFields op) = false := familyAccepts_of_kindOf_eq_mov .lxi hop
  rw [familyAccepts_decodeFields, Bool.not_eq_false'] at hacc
  exact executeWith_of_rejected k hf hacc

/-- What MOV r1,r2 does on a ready block (41_mov.md R121). -/
theorem executeWith_movRegReg (k : Costs) {sel : Sel} (dst src : Reg) {s : State} (hsel : sel ≠ .lxi)
    (hs : Ready k.movBase s) :
    executeWith k sel (movWord (regCode dst) (regCode src)) s =
      .next (setCyc (s.cyc + BitVec.ofNat 64 k.movBase) (writeReg dst (readReg src s) s)) := by
  rw [executeWith_of_mov k (decodeFields_movRegReg dst src) rfl hsel hs, stageOf_eq]
  rfl

/-- What MOV r,M does on a ready block: the address is the H and L of the old state (41_mov.md R122). -/
theorem executeWith_movRegMem (k : Costs) {sel : Sel} (dst : Reg) {s : State} (hsel : sel ≠ .lxi)
    (hs : Ready (k.movBase + k.movMemSurcharge) s) :
    executeWith k sel (movWord (regCode dst) memCode) s =
      .next (setCyc (s.cyc + BitVec.ofNat 64 (k.movBase + k.movMemSurcharge))
        (writeReg dst (memRead (s.h ++ s.l) s) s)) := by
  rw [executeWith_of_mov k (decodeFields_movRegMem dst) rfl hsel hs, stageOf_eq]
  rfl

/-- What MOV M,r does on a ready block (41_mov.md R123). -/
theorem executeWith_movMemReg (k : Costs) {sel : Sel} (src : Reg) {s : State} (hsel : sel ≠ .lxi)
    (hs : Ready (k.movBase + k.movMemSurcharge) s) :
    executeWith k sel (movWord memCode (regCode src)) s =
      .next (setCyc (s.cyc + BitVec.ofNat 64 (k.movBase + k.movMemSurcharge))
        (memWrite (s.h ++ s.l) (readReg src s) s)) := by
  rw [executeWith_of_mov k (decodeFields_movMemReg src) rfl hsel hs, stageOf_eq]
  rfl

/-- Settles O14: the next state is the register write with CYC charged, and a register written with its own value is
no change. -/
theorem registerToRegisterMovForm : Obligations.RegisterToRegisterMovForm := by
  unfold Obligations.RegisterToRegisterMovForm
  refine ⟨fun k sel dst src s hsel hs =>
    ⟨_, executeWith_movRegReg k dst src hsel hs, ?dst, fun r hr => ?other, writeReg_f dst _ s,
      writeReg_pc dst _ s, writeReg_sp dst _ s, writeReg_mem dst _ s, (writeReg_fault dst _ s).trans hs.1,
      charged_toNat hs.2, fun heq => ?same⟩, rfl⟩
  case dst => rw [readReg_setCyc, readReg_writeReg, if_pos rfl]
  case other => rw [readReg_setCyc, readReg_writeReg, if_neg hr]
  case same => rw [heq, writeReg_self]; rfl

/-- Settles O15: the next state is the register write of the byte at the old HL, with CYC charged. -/
theorem memoryToRegisterMovForm : Obligations.MemoryToRegisterMovForm := by
  unfold Obligations.MemoryToRegisterMovForm
  refine ⟨fun k sel dst s hsel hs =>
    ⟨_, executeWith_movRegMem k dst hsel hs, ?dst, fun r hr => ?other, writeReg_f dst _ s,
      writeReg_pc dst _ s, writeReg_sp dst _ s, writeReg_mem dst _ s, (writeReg_fault dst _ s).trans hs.1,
      charged_toNat hs.2⟩, rfl⟩
  case dst => rw [readReg_setCyc, readReg_writeReg, if_pos rfl]
  case other => rw [readReg_setCyc, readReg_writeReg, if_neg hr]

/-- Settles O16: the next state is the store at the old HL, with CYC charged; a fetch is a read at PC, which the store
leaves. -/
theorem registerToMemoryMovForm : Obligations.RegisterToMemoryMovForm := by
  unfold Obligations.RegisterToMemoryMovForm
  refine ⟨fun k sel src s hsel hs =>
    ⟨_, executeWith_movMemReg k src hsel hs, fun x => ?bytes, fun r => ?regs, rfl, rfl, rfl, hs.1,
      charged_toNat hs.2, fun hpc => ?fetch⟩, rfl⟩
  case bytes => rw [memRead_setCyc, memRead_memWrite]
  case regs => rw [readReg_setCyc, readReg_memWrite]
  case fetch => rw [← hpc]; exact memRead_memWrite_self s.pc (readReg src s) s

/-- The default cost of a MOV as a number (00_scope.md R5). -/
theorem movCost_costs (mem : Bool) : movCost costs mem = if mem then 7 else 5 := by
  cases mem <;> rfl

theorem ofNat_movCost_costs (mem : Bool) : BitVec.ofNat 64 (movCost costs mem) = if mem then 7#64 else 5#64 := by
  cases mem <;> rfl

/-- A word `01DDDSSS` that decodes to a MOV follows the rule made of its row, its cost and its staged effect, with the
preset run through that effect as the worked example. -/
theorem movOpcodeRule_of_decodeFields {ddd sss : BitVec 3} {i : Instr} {d : Decoded} {mem : Bool}
    {effect : State → State} (hop : decodeFields (movWord ddd sss) = d) (hd : kindOf d = .mov)
    (hi : decodeOp (movWord ddd sss) = i) (hcost : ∀ k, costOf k d = movCost k mem)
    (heffect : ∀ s, stageOf d s = effect s) :
    MovOpcodeRule (movWord ddd sss) i ddd sss mem effect
      (setCyc (if mem then 7#64 else 5#64) (effect movPreset)) := by
  have hrun : ∀ k sel s, sel ≠ .lxi → Ready (movCost k mem) s → executeWith k sel (movWord ddd sss) s =
      .next (setCyc (s.cyc + BitVec.ofNat 64 (movCost k mem)) (effect s)) := by
    intro k sel s hsel hs
    rw [← hcost, ← heffect]
    exact executeWith_of_mov k hop hd hsel (hcost k ▸ hs)
  refine ⟨rfl, hi, fun s hs => ?exec, hrun, fun k s => executeWith_lxi_of_mov k (hop ▸ hd), ?worked⟩
  case exec =>
    rw [← movCost_costs] at hs
    rw [← hi, exec_decodeOp, hrun costs .any s (by decide) hs, ofNat_movCost_costs]
    rfl
  case worked =>
    have hs : Ready (movCost costs mem) movPreset := by cases mem <;> decide
    have hcyc : movPreset.cyc = 0#64 := rfl
    rw [executeMov, hrun costs .mov movPreset (by decide) hs, ofNat_movCost_costs, hcyc, BitVec.zero_add]

/-- The rule of MOV r1,r2 for a pair of registers (41_mov.md R121). -/
def MovRegRegRule (dst src : Reg) : Prop :=
  MovOpcodeRule (movWord (regCode dst) (regCode src)) (movRegRegInstr dst src) (regCode dst) (regCode src) false
    (fun s => writeReg dst (readReg src s) s) (setCyc 5#64 (writeReg dst (readReg src movPreset) movPreset))

/-- The rule of MOV r,M for a register (41_mov.md R122). -/
def MovRegMemRule (dst : Reg) : Prop :=
  MovOpcodeRule (movWord (regCode dst) memCode) (movRegMemInstr dst) (regCode dst) memCode true
    (fun s => writeReg dst (memRead (s.h ++ s.l) s) s)
    (setCyc 7#64 (writeReg dst (memRead (movPreset.h ++ movPreset.l) movPreset) movPreset))

/-- The rule of MOV M,r for a register (41_mov.md R123). -/
def MovMemRegRule (src : Reg) : Prop :=
  MovOpcodeRule (movWord memCode (regCode src)) (movMemRegInstr src) memCode (regCode src) true
    (fun s => memWrite (s.h ++ s.l) (readReg src s) s)
    (setCyc 7#64 (memWrite (movPreset.h ++ movPreset.l) (readReg src movPreset) movPreset))

theorem movRegRegRule (dst src : Reg) : MovRegRegRule dst src :=
  have hop := decodeFields_movRegReg dst src
  movOpcodeRule_of_decodeFields hop rfl (by rw [decodeOp, hop]) (fun _ => rfl) (fun _ => stageOf_eq _ _)

theorem movRegMemRule (dst : Reg) : MovRegMemRule dst :=
  have hop := decodeFields_movRegMem dst
  movOpcodeRule_of_decodeFields hop rfl (by rw [decodeOp, hop]) (fun _ => rfl) (fun _ => stageOf_eq _ _)

theorem movMemRegRule (src : Reg) : MovMemRegRule src :=
  have hop := decodeFields_movMemReg src
  movOpcodeRule_of_decodeFields hop rfl (by rw [decodeOp, hop]) (fun _ => rfl) (fun _ => stageOf_eq _ _)

/-- The eight rules of one destination register, in the order of their opcodes (41_mov.md R130 to R177, R185 to
R192). -/
theorem movIntoRegRules (dst : Reg) :
    MovRegRegRule dst .b ∧ MovRegRegRule dst .c ∧ MovRegRegRule dst .d ∧ MovRegRegRule dst .e ∧
      MovRegRegRule dst .h ∧ MovRegRegRule dst .l ∧ MovRegMemRule dst ∧ MovRegRegRule dst .a :=
  ⟨movRegRegRule dst .b, movRegRegRule dst .c, movRegRegRule dst .d, movRegRegRule dst .e, movRegRegRule dst .h,
    movRegRegRule dst .l, movRegMemRule dst, movRegRegRule dst .a⟩

/-- Settles O6: the rules are those of the eight sources at destination B, with opcode, effect and worked example
evaluated. -/
theorem movIntoBFollowsItsRules : Obligations.MovIntoBFollowsItsRules := by
  unfold Obligations.MovIntoBFollowsItsRules
  exact movIntoRegRules .b

/-- Settles O7: the rules are those of the eight sources at destination C, with opcode, effect and worked example
evaluated. -/
theorem movIntoCFollowsItsRules : Obligations.MovIntoCFollowsItsRules := by
  unfold Obligations.MovIntoCFollowsItsRules
  exact movIntoRegRules .c

/-- Settles O8: the rules are those of the eight sources at destination D, with opcode, effect and worked example
evaluated. -/
theorem movIntoDFollowsItsRules : Obligations.MovIntoDFollowsItsRules := by
  unfold Obligations.MovIntoDFollowsItsRules
  exact movIntoRegRules .d

/-- Settles O9: the rules are those of the eight sources at destination E, with opcode, effect and worked example
evaluated. -/
theorem movIntoEFollowsItsRules : Obligations.MovIntoEFollowsItsRules := by
  unfold Obligations.MovIntoEFollowsItsRules
  exact movIntoRegRules .e

/-- Settles O10: the rules are those of the eight sources at destination H, with opcode, effect and worked example
evaluated. -/
theorem movIntoHFollowsItsRules : Obligations.MovIntoHFollowsItsRules := by
  unfold Obligations.MovIntoHFollowsItsRules
  exact movIntoRegRules .h

/-- Settles O11: the rules are those of the eight sources at destination L, with opcode, effect and worked example
evaluated. -/
theorem movIntoLFollowsItsRules : Obligations.MovIntoLFollowsItsRules := by
  unfold Obligations.MovIntoLFollowsItsRules
  exact movIntoRegRules .l

/-- Settles O12: the rules are those of the store form at the seven source registers, in the order of their opcodes. -/
theorem movIntoMemoryFollowsItsRules : Obligations.MovIntoMemoryFollowsItsRules := by
  unfold Obligations.MovIntoMemoryFollowsItsRules
  exact ⟨movMemRegRule .b, movMemRegRule .c, movMemRegRule .d, movMemRegRule .e, movMemRegRule .h, movMemRegRule .l,
    movMemRegRule .a⟩

/-- Settles O13: the rules are those of the eight sources at destination A, with opcode, effect and worked example
evaluated. -/
theorem movIntoAFollowsItsRules : Obligations.MovIntoAFollowsItsRules := by
  unfold Obligations.MovIntoAFollowsItsRules
  exact movIntoRegRules .a

end Sys2Proof.Machine

/-! PROOFS. The LXI family (42_lxi.md): how a word `00RP0001` decodes, what its transaction does, and from these the
opcode rule of every target, of which R201 to R204 are the instances. -/

namespace Sys2Proof.Machine

/-- A word `00RP0001` decodes to the LXI of the target its code names (30_encoding.md R81, R83). -/
theorem decodeFields_lxiWord (rp : Rp) : decodeFields (lxiWord (rpCode rp)) = .lxi rp := by
  cases rp <;> rfl

theorem isLxiOpcode_lxiWord (rp : Rp) : isLxiOpcode (lxiWord (rpCode rp)) = true := by
  cases rp <;> rfl

/-- An LXI on a ready block commits its staged state with its cost added (40_dispatch.md R105, R107). -/
theorem executeWith_lxiWord (k : Costs) {sel : Sel} (rp : Rp) {s : State} (hsel : sel ≠ .mov) (hs : Ready k.lxi s) :
    executeWith k sel (lxiWord (rpCode rp)) s =
      .next (setCyc (s.cyc + BitVec.ofNat 64 k.lxi) (stageOf (.lxi rp) s)) := by
  obtain ⟨hf, hc⟩ := hs
  have hop := isLxiOpcode_lxiWord rp
  have hr : rejected sel (lxiWord (rpCode rp)) = false := by simpa [rejected_of_isLxiOpcode sel hop] using hsel
  have hcost : opcodeCost k (lxiWord (rpCode rp)) = k.lxi := by rw [opcodeCost, if_pos hop]
  rw [← stageOf_cyc (.lxi rp) s] at hc ⊢
  rw [executeWith_of_accepted k hf hr, hcost, decodeFields_lxiWord, commit_of_le hc]

/-- execute_mov rejects an LXI (60_exceptions.md R220). -/
theorem executeWith_mov_lxiWord (k : Costs) (rp : Rp) {s : State} (hf : s.fault = none) :
    executeWith k .mov (lxiWord (rpCode rp)) s =
      .next { s with fault := some (recordOf .mov (lxiWord (rpCode rp)) s) } :=
  executeWith_of_rejected k hf (rejected_of_isLxiOpcode .mov (isLxiOpcode_lxiWord rp))

/-- An LXI follows the rule made of its staged effect, with the preset run through that effect as the worked example;
the wraps are those of PC + 2 (42_lxi.md R200). -/
theorem lxiOpcodeRule_of_stageOf (rp : Rp) {effect : State → State} (heffect : ∀ s, stageOf (.lxi rp) s = effect s) :
    LxiOpcodeRule (lxiWord (rpCode rp)) (lxiInstr rp) (rpCode rp) effect (setCyc 10#64 (effect lxiPreset)) := by
  have hi : decodeOp (lxiWord (rpCode rp)) = lxiInstr rp := by rw [decodeOp, decodeFields_lxiWord]
  have hrun : ∀ k sel s, sel ≠ .mov → Ready k.lxi s → executeWith k sel (lxiWord (rpCode rp)) s =
      .next (setCyc (s.cyc + BitVec.ofNat 64 k.lxi) (effect s)) := by
    intro k sel s hsel hs
    rw [← heffect]
    exact executeWith_lxiWord k rp hsel hs
  have hpc : ∀ s, (effect s).pc = s.pc + 2#16 := by
    intro s
    rw [← heffect, stageOf_pc]
    rfl
  refine ⟨rfl, hi, fun s hs => ?exec, hrun, fun k s => executeWith_mov_lxiWord k rp, fun s hs => ?pcFFFF,
    fun s hs => ?pcFFFE, hrun costs .lxi lxiPreset (by decide) (by decide)⟩
  case exec =>
    rw [← hi, exec_decodeOp]
    exact hrun costs .any s (by decide) hs
  case pcFFFF =>
    rw [hpc, hs]
    exact ⟨rfl, rfl⟩
  case pcFFFE =>
    rw [hpc, hs]
    exact ⟨rfl, rfl⟩

/-- Settles O17: the rule is that of LXI at target BC, with opcode and worked example evaluated. -/
theorem lxiBcLoadsTheOperandBytes : Obligations.LxiBcLoadsTheOperandBytes := by
  unfold Obligations.LxiBcLoadsTheOperandBytes
  exact lxiOpcodeRule_of_stageOf .bc (stageOf_eq (.lxi .bc))

/-- Settles O18: the rule is that of LXI at target DE, with opcode and worked example evaluated. -/
theorem lxiDeLoadsTheOperandBytes : Obligations.LxiDeLoadsTheOperandBytes := by
  unfold Obligations.LxiDeLoadsTheOperandBytes
  exact lxiOpcodeRule_of_stageOf .de (stageOf_eq (.lxi .de))

/-- Settles O19: the rule is that of LXI at target HL, with opcode and worked example evaluated. -/
theorem lxiHlLoadsTheOperandBytes : Obligations.LxiHlLoadsTheOperandBytes := by
  unfold Obligations.LxiHlLoadsTheOperandBytes
  exact lxiOpcodeRule_of_stageOf .hl (stageOf_eq (.lxi .hl))

/-- Settles O20: the rule is that of LXI at target SP, with opcode and worked example evaluated. -/
theorem lxiSpLoadsTheOperandWord : Obligations.LxiSpLoadsTheOperandWord := by
  unfold Obligations.LxiSpLoadsTheOperandWord
  exact lxiOpcodeRule_of_stageOf .sp (stageOf_eq (.lxi .sp))

end Sys2Proof.Machine

/-! PROOFS. Exceptions and the host's port (60_exceptions.md): the outcome and the reply of a transaction (R220, R223),
the latch that only construction clears (R225), and the host writes (R233). -/

namespace Sys2Proof.Machine

/-- The three cases of the error outcome (60_exceptions.md R220). -/
theorem rejected_iff (sel : Sel) (op : Byte) :
    rejected sel op = true ↔ (isMovOpcode op = false ∧ isLxiOpcode op = false) ∨
      (sel = .mov ∧ isLxiOpcode op = true) ∨ (sel = .lxi ∧ isMovOpcode op = true) := by
  simp [rejected, or_assoc]

/-- A transaction that has a step returns ERR if its opcode is rejected, and OK otherwise (40_dispatch.md R100). -/
theorem replyWith_of_next {k : Costs} {sel : Sel} {op : Byte} {s t : State} (h : executeWith k sel op s = .next t) :
    replyWith k sel op s = some (if rejected sel op = true then .err op s.pc else .ok) := by
  rw [replyWith, h, familyAccepts_decodeFields]
  cases rejected sel op <;> rfl

/-- The commit of an accepted opcode leaves FAULT `None` (60_exceptions.md R223). -/
theorem fault_eq_none_of_accepted {k : Costs} {sel : Sel} {op : Byte} {s t : State} (hr : rejected sel op = false)
    (h : executeWith k sel op s = .next t) : t.fault = none := by
  obtain ⟨hf, -⟩ := executeWith_next h
  rw [executeWith_of_accepted k hf hr] at h
  obtain ⟨-, rfl⟩ := commit_next h
  rw [setCyc_fault, stageOf_fault, hf]

/-- Settles O25: the three cases are those of a rejected opcode, whose outcome is the error; an accepted opcode's is
the commit. -/
theorem errorOutcomeExactlyOnRejectedOpcodes : Obligations.ErrorOutcomeExactlyOnRejectedOpcodes := by
  unfold Obligations.ErrorOutcomeExactlyOnRejectedOpcodes
  intro k sel op s hf
  rw [← rejected_iff, Bool.not_eq_true]
  refine ⟨fun hr => ?error, fun hr t h => ⟨fault_eq_none_of_accepted hr h, ?ok⟩⟩
  case error =>
    have hx := executeWith_of_rejected k hf hr
    exact ⟨hx, by rw [replyWith_of_next hx, if_pos hr]⟩
  case ok => rw [replyWith_of_next h, hr, if_neg Bool.false_ne_true]

/-- Settles O26: each clause is the outcome of the first test that decides, acceptance, the family check and the CYC
limit in turn. -/
theorem testsAreTakenInOrder : Obligations.TestsAreTakenInOrder := by
  unfold Obligations.TestsAreTakenInOrder
  refine fun k sel op s => ⟨executeWith_of_latched k sel op, executeWith_of_rejected k, executeWith_of_cyc_full k,
    fun hf hr hc => ?commit⟩
  obtain ⟨t, h, -⟩ := executeWith_charges_exactly k hf hr hc
  exact ⟨t, h, fault_eq_none_of_accepted hr h⟩

/-- FAULT has no host write (60_exceptions.md R233). -/
@[simp] theorem portWrite_fault (w : PortWrite) (s : State) : (portWrite w s).fault = s.fault := by
  cases w with
  | reg r v => exact writeReg_fault r v s
  | f v => exact writeF_fault v s
  | ptr p v => exact ptrSet_fault p v s
  | mem x v => exact memWrite_fault x v s

/-- Settles O46: every next state comes from acceptance, which needs FAULT to be `None`, and no host write touches
FAULT. -/
theorem onlyConstructionClearsFault : Obligations.OnlyConstructionClearsFault := by
  unfold Obligations.OnlyConstructionClearsFault
  refine ⟨fun _ _ _ _ _ h => (executeWith_next h).1, fun _ _ _ h => (exec_next h).1, fun s t h => ?step,
    portWrite_fault, rfl⟩
  rw [step_eq_driverStepWith] at h
  exact (driverStepWith_next h).1

@[simp] theorem ptrValue_writeReg (q : Pointer) (r : Reg) (v : Byte) (s : State) :
    ptrValue q (writeReg r v s) = ptrValue q s := by
  cases q with
  | pc => exact writeReg_pc r v s
  | sp => exact writeReg_sp r v s

/-- What the host reads after writing a register. -/
theorem portRead_writeReg (e : Element) (r : Reg) (v : Byte) (s : State) :
    portRead e (writeReg r v s) = if e = .reg r then .u8 v else portRead e s := by
  cases e with
  | reg q => simp only [portRead, readReg_writeReg, Element.reg.injEq, apply_ite ElementValue.u8]
  | f => exact congrArg ElementValue.u8 (writeReg_f r v s)
  | ptr q => exact congrArg ElementValue.u16 (ptrValue_writeReg q r v s)
  | mem y => exact congrArg ElementValue.u8 (memRead_writeReg y r v s)
  | cyc => exact congrArg ElementValue.u64 (writeReg_cyc r v s)
  | fault => exact congrArg ElementValue.record (writeReg_fault r v s)

/-- What the host reads after writing F. -/
theorem portRead_writeF (e : Element) (v : Byte) (s : State) :
    portRead e (writeF v s) = if e = .f then .u8 v else portRead e s := by
  cases e with
  | reg q => exact congrArg ElementValue.u8 (readReg_writeF q v s)
  | ptr q => cases q <;> rfl
  | _ => rfl

/-- What the host reads after setting PC or SP. -/
theorem portRead_ptrSet (e : Element) (p : Pointer) (v : Word16) (s : State) :
    portRead e (ptrSet p v s) = if e = .ptr p then .u16 v else portRead e s := by
  cases e with
  | reg q => exact congrArg ElementValue.u8 (readReg_ptrSet q p v s)
  | f => exact congrArg ElementValue.u8 (ptrSet_f p v s)
  | ptr q => simp only [portRead, ptrValue_ptrSet, Element.ptr.injEq, apply_ite ElementValue.u16]
  | mem y => exact congrArg ElementValue.u8 (memRead_ptrSet y p v s)
  | cyc => exact congrArg ElementValue.u64 (ptrSet_cyc p v s)
  | fault => exact congrArg ElementValue.record (ptrSet_fault p v s)

/-- What the host reads after writing a byte of memory. -/
theorem portRead_memWrite (e : Element) (x : Word16) (v : Byte) (s : State) :
    portRead e (memWrite x v s) = if e = .mem x then .u8 v else portRead e s := by
  cases e with
  | reg q => exact congrArg ElementValue.u8 (readReg_memWrite q x v s)
  | ptr q => exact congrArg ElementValue.u16 (ptrValue_memWrite q x v s)
  | mem y => simp only [portRead, memRead_memWrite, Element.mem.injEq, apply_ite ElementValue.u8]
  | _ => rfl

/-- A host write shows in the element it names and in no other (60_exceptions.md R233). -/
theorem portRead_portWrite (e : Element) (w : PortWrite) (s : State) :
    portRead e (portWrite w s) = if e = writtenElement w then writtenValue w else portRead e s := by
  cases w with
  | reg r v => exact portRead_writeReg e r v s
  | f v => exact portRead_writeF e v s
  | ptr p v => exact portRead_ptrSet e p v s
  | mem x v => exact portRead_memWrite e x v s

/-- Settles O49: the four kinds of host write one by one, none of which names CYC or FAULT. -/
theorem hostWriteSetsOneElement : Obligations.HostWriteSetsOneElement := by
  unfold Obligations.HostWriteSetsOneElement
  intro w e s
  exact ⟨portRead_portWrite e w s, by cases w <;> simp [writtenElement], by cases w <;> simp [writtenElement]⟩

end Sys2Proof.Machine

/-! PROOFS. The codec (30_encoding.md): opcodes and instructions determine each other, and the byte decoder and the
encoder with them. -/

namespace Sys2Proof.Machine

/-- The INVALID opcodes are those of neither family (30_encoding.md R91). -/
theorem isInvalidOpcode_eq (op : Byte) : isInvalidOpcode op = (!isMovOpcode op && !isLxiOpcode op) := by
  simp [isInvalidOpcode, isMovOpcode, isLxiOpcode, Bool.and_assoc]

/-- A term `invalid op` is well-formed for the 188 opcodes of its row (30_encoding.md R91; log entry 8). -/
theorem wf_invalid (op : Byte) : (Instr.invalid op).wf = (!isMovOpcode op && !isLxiOpcode op && op != 0x76#8) := by
  rw [Instr.wf, isInvalidOpcode_eq]

/-- The opcode of a well-formed instruction decodes to it (30_encoding.md R86). -/
theorem decodeOp_opcodeOf {i : Instr} (hi : i.wf = true) : decodeOp (opcodeOf i) = i := by
  cases i with
  | invalid op =>
    rw [wf_invalid] at hi
    simp only [Bool.and_eq_true, Bool.not_eq_true', bne_iff_ne] at hi
    obtain ⟨⟨hm, hl⟩, hne⟩ := hi
    rw [opcodeOf, decodeOp_of_neither_family hm hl, if_neg hne]
  | _ => rfl

/-- Every opcode is that of the instruction it decodes to: no word has two meanings (30_encoding.md R86). -/
theorem opcodeOf_decodeOp (op : Byte) : opcodeOf (decodeOp op) = op := by
  revert op; decide

/-- The decoder answers well-formed terms only (log entry 8). -/
theorem wf_decodeOp (op : Byte) : (decodeOp op).wf = true := by
  revert op; decide

/-- An LXI is read with the two bytes after its opcode, low byte first (30_encoding.md R81). -/
theorem decodeBytes_of_isLxi {op : Byte} (h : (decodeOp op).isLxi = true) (lo hi : Byte) (rest : List Byte) :
    decodeBytes (op :: lo :: hi :: rest) = .ok (⟨decodeOp op, some (joinBytes hi lo)⟩, rest) := by
  rw [decodeBytes, if_pos h]

/-- Any other instruction is its opcode byte alone (30_encoding.md R81, R89). -/
theorem decodeBytes_of_not_isLxi {op : Byte} (h : (decodeOp op).isLxi = false) (rest : List Byte) :
    decodeBytes (op :: rest) = .ok (⟨decodeOp op, none⟩, rest) := by
  unfold decodeBytes
  simp [h]

/-- Everything the byte decoder can read: an LXI with its two operand bytes, or an opcode byte alone. -/
theorem decodeBytes_ok {bytes rest : List Byte} {f : FullInstr} (h : decodeBytes bytes = .ok (f, rest)) :
    ∃ op, ((decodeOp op).isLxi = true ∧ ∃ lo hi, bytes = op :: lo :: hi :: rest ∧
        f = ⟨decodeOp op, some (joinBytes hi lo)⟩) ∨
      ((decodeOp op).isLxi = false ∧ bytes = op :: rest ∧ f = ⟨decodeOp op, none⟩) := by
  match bytes with
  | [] => cases h
  | op :: after =>
    refine ⟨op, ?_⟩
    cases hl : (decodeOp op).isLxi with
    | false =>
      rw [decodeBytes_of_not_isLxi hl] at h
      cases h
      exact .inr ⟨rfl, rfl, rfl⟩
    | true =>
      match after with
      | lo :: hi :: after =>
        rw [decodeBytes_of_isLxi hl] at h
        cases h
        exact .inl ⟨rfl, lo, hi, rfl, rfl⟩
      | [_] | [] =>
        simp [decodeBytes, hl] at h

/-- Three bytes, the longest instruction, are always decoded, by the first of them (30_encoding.md R80, R89). -/
theorem decodeBytes_three (op lo hi : Byte) :
    ∃ imm rest, decodeBytes [op, lo, hi] = .ok (⟨decodeOp op, imm⟩, rest) := by
  cases hl : (decodeOp op).isLxi with
  | true => exact ⟨_, _, decodeBytes_of_isLxi hl lo hi []⟩
  | false => exact ⟨_, _, decodeBytes_of_not_isLxi hl [lo, hi]⟩

/-- Settles O2: the opcode decodes to the instruction, and the two operand bytes of an LXI join to its immediate. -/
theorem decodeOfEncodeIsTheInstruction : Obligations.DecodeOfEncodeIsTheInstruction := by
  unfold Obligations.DecodeOfEncodeIsTheInstruction
  rintro ⟨i, imm⟩ rest hf
  simp only [FullInstr.wf, Bool.and_eq_true, beq_iff_eq] at hf
  obtain ⟨hi, himm⟩ := hf
  have hdec := decodeOp_opcodeOf hi
  cases imm with
  | none =>
    have hl : (decodeOp (opcodeOf i)).isLxi = false := by rw [hdec, ← himm]; rfl
    exact (decodeBytes_of_not_isLxi hl rest).trans (by rw [hdec])
  | some imm =>
    have hl : (decodeOp (opcodeOf i)).isLxi = true := by rw [hdec, ← himm]; rfl
    exact (decodeBytes_of_isLxi hl (immLo imm) (immHi imm) rest).trans (by rw [hdec, joinBytes_immHi_immLo])

/-- Settles O3: what the byte decoder reads is its own opcode's instruction, so encoding it gives the bytes back. -/
theorem encodeOfDecodeIsTheBytes : Obligations.EncodeOfDecodeIsTheBytes := by
  unfold Obligations.EncodeOfDecodeIsTheBytes
  intro bytes f rest h
  obtain ⟨op, ⟨hl, lo, hi, rfl, rfl⟩ | ⟨hl, rfl, rfl⟩⟩ := decodeBytes_ok h
  · exact ⟨by simp [FullInstr.wf, wf_decodeOp, hl], by simp [encode, opcodeOf_decodeOp]⟩
  · exact ⟨by simp [FullInstr.wf, wf_decodeOp, hl], by simp [encode, opcodeOf_decodeOp]⟩

/-- Settles O1: each word is the opcode of the well-formed instruction it stands for. -/
theorem opcodeWordsDecodeAsTheSpecSays : Obligations.OpcodeWordsDecodeAsTheSpecSays := by
  unfold Obligations.OpcodeWordsDecodeAsTheSpecSays
  exact ⟨decodeOp_opcodeOf (i := .movAB) rfl, decodeOp_opcodeOf (i := .movBM) rfl,
    decodeOp_opcodeOf (i := .movMA) rfl, decodeOp_opcodeOf (i := .lxiB) rfl, decodeOp_opcodeOf (i := .lxiD) rfl,
    decodeOp_opcodeOf (i := .lxiH) rfl, decodeOp_opcodeOf (i := .lxiSP) rfl, decodeOp_opcodeOf (i := .reservedMovMM) rfl,
    decodeOp_opcodeOf (i := .invalid 0x00#8) rfl, decodeOp_opcodeOf (i := .invalid 0x3F#8) rfl,
    decodeOp_opcodeOf (i := .invalid 0x80#8) rfl⟩

/-- Settles O55: an INVALID term's verdict is the error outcome for its opcode, and the decoder answers such a term for
an opcode of its row only. -/
theorem invalidTermsTakeTheErrorTheyCarry : Obligations.InvalidTermsTakeTheErrorTheyCarry := by
  unfold Obligations.InvalidTermsTakeTheErrorTheyCarry
  refine ⟨fun op s hf => ?_, wf_invalid, wf_decodeOp⟩
  rw [exec_eq, accept_of_none hf]
  rfl

end Sys2Proof.Machine

/-! PROOFS. The decoder's kinds and signals (30_encoding.md R92, R93), in terms of the opcode ranges. -/

namespace Sys2Proof.Machine

/-- Every MOV form but M to M is a MOV, with the memory operand on the side that names M. -/
theorem signals_movForm {dst src : Operand} (h : ¬(dst = .m ∧ src = .m)) :
    kindOf (movForm dst src) = .mov ∧ memSrcOf (movForm dst src) = decide (src = .m) ∧
      memDstOf (movForm dst src) = decide (dst = .m) := by
  match dst, src with
  | .reg _, .reg _ => simp [movForm, kindOf, memSrcOf, memDstOf]
  | .reg _, .m => simp [movForm, kindOf, memSrcOf, memDstOf]
  | .m, .reg _ => simp [movForm, kindOf, memSrcOf, memDstOf]
  | .m, .m => exact absurd ⟨rfl, rfl⟩ h

/-- The kind of an opcode is that of its range (30_encoding.md R84, R85, R91). -/
theorem kindOf_decodeFields (op : Byte) :
    kindOf (decodeFields op) = if isMovOpcode op then .mov else if isLxiOpcode op then .lxi else .invalid := by
  rw [decodeFields_eq, apply_ite kindOf, apply_ite kindOf]
  by_cases hm : isMovOpcode op = true
  · rw [if_pos hm, if_pos hm, (signals_movForm (not_both_operands_m hm)).1]
  · rw [if_neg hm, if_neg hm]
    rfl

/-- `mem_src` and `mem_dst` are 1 for a MOV whose code on that side is 110 (30_encoding.md R93). -/
theorem memSignals_decodeFields (op : Byte) :
    memSrcOf (decodeFields op) = (isMovOpcode op && srcField op == memCode) ∧
      memDstOf (decodeFields op) = (isMovOpcode op && dstField op == memCode) := by
  rw [decodeFields_eq]
  by_cases hm : isMovOpcode op = true
  · obtain ⟨-, hsrc, hdst⟩ := signals_movForm (not_both_operands_m hm)
    rw [if_pos hm, hm, hsrc, hdst]
    simp [operandOfCode_eq_m_iff, Bool.beq_eq_decide_eq]
  · rw [if_neg hm, Bool.eq_false_iff.mpr hm]
    by_cases hl : isLxiOpcode op = true
    · rw [if_pos hl]
      exact ⟨rfl, rfl⟩
    · rw [if_neg hl]
      exact ⟨rfl, rfl⟩

/-- No verdict has both signals: M is an operand at most once (20_memory.md R58). -/
theorem memSrcOf_and_memDstOf (d : Decoded) : (memSrcOf d && memDstOf d) = false := by
  cases d <;> rfl

/-- The cost signal: the cost of the opcode's range, and 0 for an INVALID opcode (30_encoding.md R93). -/
theorem costOf_decodeFields_eq (k : Costs) (op : Byte) :
    costOf k (decodeFields op) = if isMovOpcode op || isLxiOpcode op then opcodeCost k op else 0 := by
  by_cases h : isMovOpcode op = true ∨ isLxiOpcode op = true
  · rw [costOf_decodeFields k h, if_pos (by simpa using h)]
  · obtain ⟨hm, hl⟩ := not_or.mp h
    rw [Bool.not_eq_true] at hm hl
    rw [decodeFields_of_neither_family hm hl, hm, hl]
    rfl

/-- Settles O5: the signals are those of the verdict, whose kind, memory operands and cost follow from the opcode's
range and fields. -/
theorem decoderSignalsFollowTheOpcode : Obligations.DecoderSignalsFollowTheOpcode := by
  unfold Obligations.DecoderSignalsFollowTheOpcode
  intro k op
  obtain ⟨hsrc, hdst⟩ := memSignals_decodeFields op
  refine ⟨kindOf_decodeFields op, rfl, rfl, rfl, hsrc, hdst, memSrcOf_and_memDstOf _, ?len, ?cost⟩
  case len =>
    refine (congrArg lenOf (kindOf_decodeFields op)).trans ?_
    rw [apply_ite lenOf, apply_ite lenOf]
    rfl
  case cost =>
    refine (congrArg (BitVec.ofNat 64) (costOf_decodeFields_eq k op)).trans ?_
    rw [apply_ite (BitVec.ofNat 64)]

/-- The MOV opcodes are all of `01xxxxxx` but 0x76 (30_encoding.md R84). -/
theorem countP_isMovOpcode :
    (List.range 256).countP (fun n => isMovOpcode (BitVec.ofNat 8 n)) = 0 + 63 + 0 + 0 := by
  rw [countP_range_256]
  decide

/-- The LXI opcodes are four of `00xxxxxx` (30_encoding.md R85). -/
theorem countP_isLxiOpcode :
    (List.range 256).countP (fun n => isLxiOpcode (BitVec.ofNat 8 n)) = 4 + 0 + 0 + 0 := by
  rw [countP_range_256]
  decide

theorem kind_beq_mov (op : Byte) : (kindOf (decodeFields op) == .mov) = isMovOpcode op := by
  rw [kindOf_decodeFields]
  cases isMovOpcode op <;> cases isLxiOpcode op <;> rfl

theorem kind_beq_lxi (op : Byte) : (kindOf (decodeFields op) == .lxi) = isLxiOpcode op := by
  rw [Bool.eq_iff_iff, beq_iff_eq, kindOf_decodeFields_eq_lxi_iff]

theorem kind_beq_invalid (op : Byte) :
    (kindOf (decodeFields op) == .invalid) = (!isMovOpcode op && !isLxiOpcode op) := by
  rw [kindOf_decodeFields]
  cases isMovOpcode op <;> cases isLxiOpcode op <;> rfl

/-- Settles O4: each count is that of a range, and the ranges give the kind. -/
theorem opcodeSpaceIsSplitIntoThreeKinds : Obligations.OpcodeSpaceIsSplitIntoThreeKinds := by
  unfold Obligations.OpcodeSpaceIsSplitIntoThreeKinds
  simp only [kind_beq_mov, kind_beq_lxi, kind_beq_invalid]
  exact ⟨countP_isMovOpcode, countP_isLxiOpcode, countP_neither_family, kindOf_decodeFields⟩

end Sys2Proof.Machine

/-! PROOFS. The canonical form of memory (20_memory.md R50, log entry 10): a canonical list is determined by what it
reads as. -/

namespace Sys2Proof.Machine

/-- The cells of a canonical memory are its nonzero bytes. -/
theorem Memory.mem_iff_read {m : Memory} (h : Memory.wf m) (x : Nat) (v : Byte) :
    (x, v) ∈ m ↔ Memory.read m x = v ∧ v ≠ 0#8 := by
  induction m with
  | nil => exact iff_of_false List.not_mem_nil fun ⟨hv, hne⟩ => hne hv.symm
  | cons cell rest ih =>
    obtain ⟨hsorted, hcells⟩ := h
    obtain ⟨habove, hrest⟩ := List.pairwise_cons.mp hsorted
    have hne : cell.2 ≠ 0#8 := (hcells cell List.mem_cons_self).2
    rw [List.mem_cons, Memory.read]
    by_cases hx : cell.1 = x
    · have hnot : (x, v) ∉ rest := fun hmem => (habove _ hmem).ne hx
      rw [if_pos hx, or_iff_left hnot, Prod.ext_iff]
      constructor
      · rintro ⟨-, rfl⟩
        exact ⟨rfl, hne⟩
      · rintro ⟨rfl, -⟩
        exact ⟨hx.symm, rfl⟩
    · have hcell : (x, v) ≠ cell := fun heq => hx (congrArg Prod.fst heq).symm
      rw [if_neg hx, or_iff_right hcell,
        ih ⟨hrest, fun c hc => hcells c (List.mem_cons_of_mem _ hc)⟩]

/-- No address beyond the 16-bit space is listed. -/
theorem Memory.not_mem_of_le {m : Memory} (h : Memory.wf m) {x : Nat} (hx : 65536 ≤ x) (v : Byte) : (x, v) ∉ m :=
  fun hmem => absurd (h.2 _ hmem).1 hx.not_gt

/-- Settles O32: both lists have the same cells, one for each nonzero byte, in the one order of their addresses. -/
theorem equalReadsMeanEqualMemory : Obligations.EqualReadsMeanEqualMemory := by
  unfold Obligations.EqualReadsMeanEqualMemory
  intro m n hm hn hread
  have hcells : ∀ cell, cell ∈ m ↔ cell ∈ n := by
    rintro ⟨x, v⟩
    obtain hx | hx := lt_or_ge x 65536
    · have hxn := hread (BitVec.ofNat 16 x)
      rw [BitVec.toNat_ofNat, Nat.mod_eq_of_lt hx] at hxn
      rw [Memory.mem_iff_read hm, Memory.mem_iff_read hn, hxn]
    · exact iff_of_false (Memory.not_mem_of_le hm hx v) (Memory.not_mem_of_le hn hx v)
  have hanti : Std.Antisymm fun c d : Host.Cell => c.1 < d.1 := ⟨fun _ _ h h' => absurd h h'.not_gt⟩
  have hirrefl : Std.Irrefl fun c d : Host.Cell => c.1 < d.1 := ⟨fun _ => lt_irrefl _⟩
  exact hm.1.eq_of_mem_iff hn.1 hcells

end Sys2Proof.Machine

/-! PROOFS. Frames: what the staged effect of each instruction leaves unchanged, and from it the frames of `exec` and of
the LXI transaction (41_mov.md R120 to R123, 42_lxi.md R200 to R204). -/

namespace Sys2Proof.Machine

/-- A MOV into a register stages the write of one byte to it (41_mov.md R121, R122). -/
theorem stageOf_of_mov_into_reg {d : Decoded} {dst : Reg}
    (hd : d = .movRegMem dst ∨ ∃ src, d = .movRegReg dst src) (s : State) :
    ∃ v, stageOf d s = writeReg dst v s := by
  obtain rfl | ⟨src, rfl⟩ := hd
  · exact ⟨_, rfl⟩
  · exact ⟨_, rfl⟩

/-- No LXI writes memory (42_lxi.md R200). -/
@[simp] theorem stageOf_lxi_mem (rp : Rp) (s : State) : (stageOf (.lxi rp) s).mem = s.mem := by
  cases rp <;> rfl

theorem memRead_stageOf_lxi (x : Word16) (rp : Rp) (s : State) : memRead x (stageOf (.lxi rp) s) = memRead x s := by
  rw [memRead, memRead, stageOf_lxi_mem]

/-- SP changes only as the target of an LXI (42_lxi.md R204). -/
theorem stageOf_lxi_sp {rp : Rp} (h : rp ≠ .sp) (s : State) : (stageOf (.lxi rp) s).sp = s.sp := by
  cases rp with
  | sp => exact absurd rfl h
  | _ => rfl

/-- An LXI into a pair writes no register but the two of the pair (42_lxi.md R201 to R203). -/
theorem readReg_stageLxiPair {hi lo r : Reg} (h : r ∉ [hi, lo]) (s : State) :
    readReg r (stageLxiPair hi lo s) = readReg r s := by
  simp only [List.mem_cons, List.not_mem_nil, or_false, not_or] at h
  obtain ⟨hhi, hlo⟩ := h
  rw [stageLxiPair_eq, readReg_writeReg, if_neg hhi, readReg_writeReg, if_neg hlo]
  exact readReg_ptrSet r .pc _ s

/-- The registers outside its target keep their values in an LXI (42_lxi.md R201 to R204). -/
theorem readReg_stageOf_lxi {rp : Rp} {r : Reg} (h : r ∉ targetRegs rp) (s : State) :
    readReg r (stageOf (.lxi rp) s) = readReg r s := by
  cases rp with
  | bc => exact readReg_stageLxiPair h s
  | de => exact readReg_stageLxiPair h s
  | hl => exact readReg_stageLxiPair h s
  | sp => cases r <;> rfl

/-- The target of an LXI holds the two operand bytes, the later one as its high half (42_lxi.md R200). -/
theorem targetValue_stageOf_lxi (rp : Rp) (s : State) :
    targetValue rp (stageOf (.lxi rp) s) = memRead (s.pc + 1#16) s ++ memRead s.pc s := by
  rw [stageOf_eq]
  cases rp <;> rfl

theorem targetValue_setCyc (rp : Rp) (c : Count) (s : State) : targetValue rp (setCyc c s) = targetValue rp s := by
  cases rp <;> rfl

/-- The next state of an instruction other than the INVALID ones: its staged effect, with its cost added to CYC. -/
theorem exec_next_of_decoded {i : Instr} {d : Decoded} {s t : State} (hd : i.decoded = d) (hne : d ≠ .invalid)
    (h : exec i s = .next t) :
    ∃ c : Count, t = setCyc c (stageOf d s) ∧ c.toNat = s.cyc.toNat + costOf costs d := by
  subst hd
  obtain ⟨-, ⟨hinv, -⟩ | ⟨-, hc, rfl⟩⟩ := exec_next h
  · exact absurd hinv hne
  · exact ⟨_, rfl, charged_toNat hc⟩

/-- The default cost of a MOV into a register (40_dispatch.md R106, 00_scope.md R5). -/
theorem costOf_mov_into_reg {d : Decoded} {dst : Reg} (hd : d = .movRegMem dst ∨ ∃ src, d = .movRegReg dst src) :
    costOf costs d = if d = .movRegMem dst then 7 else 5 := by
  obtain rfl | ⟨src, rfl⟩ := hd
  · rw [if_pos rfl]; rfl
  · rw [if_neg (by simp)]; rfl

/-- Settles O22: the next state is the write of one register, with CYC charged. -/
theorem movIntoRegisterFrame : Obligations.MovIntoRegisterFrame := by
  unfold Obligations.MovIntoRegisterFrame
  intro i dst s t hd h
  have hne : i.decoded ≠ .invalid := by obtain hd | ⟨src, hd⟩ := hd <;> simp [hd]
  obtain ⟨c, rfl, hc⟩ := exec_next_of_decoded rfl hne h
  obtain ⟨v, hv⟩ := stageOf_of_mov_into_reg hd s
  rw [costOf_mov_into_reg hd] at hc
  rw [hv]
  refine ⟨fun r hr => ?other, writeReg_f dst v s, writeReg_pc dst v s, writeReg_sp dst v s, writeReg_fault dst v s,
    fun x => memRead_writeReg x dst v s, hc⟩
  case other => rw [readReg_setCyc, readReg_writeReg, if_neg hr]

/-- Settles O23: the next state is the store of the source register at HL, with CYC charged. -/
theorem movIntoMemoryFrame : Obligations.MovIntoMemoryFrame := by
  unfold Obligations.MovIntoMemoryFrame
  intro i src s t hd h
  obtain ⟨c, rfl, hc⟩ := exec_next_of_decoded hd (by simp) h
  exact ⟨fun r => (readReg_setCyc r _ _).trans (readReg_memWrite r _ _ s), rfl, rfl, rfl, rfl,
    memRead_memWrite_self _ _ s, fun _ hx => memRead_memWrite_of_ne hx _ s, hc⟩

/-- Settles O24: the next state is the staged LXI, which writes its target and PC, with CYC charged. -/
theorem lxiFrame : Obligations.LxiFrame := by
  unfold Obligations.LxiFrame
  intro i rp s t hd h
  obtain ⟨c, rfl, hc⟩ := exec_next_of_decoded hd (by simp) h
  exact ⟨fun r hr => (readReg_setCyc r _ _).trans (readReg_stageOf_lxi hr s), fun hsp => stageOf_lxi_sp hsp s,
    stageOf_f _ s, stageOf_fault _ s, fun x => memRead_stageOf_lxi x rp s, hc⟩

/-- Settles O21: the next state is the staged LXI, with CYC charged; the corners at 0xFFFF and 0xFFFE are those of
PC + 1 and PC + 2 modulo 2^16. -/
theorem everyLxiConsumesTwoOperandBytes : Obligations.EveryLxiConsumesTwoOperandBytes := by
  unfold Obligations.EveryLxiConsumesTwoOperandBytes
  intro k sel rp s hsel hs
  refine ⟨fun imm => rfl, _, executeWith_lxiWord k rp hsel hs, ?_⟩
  have hpc : (stageOf (.lxi rp) s).pc = s.pc + 2#16 := stageOf_pc (.lxi rp) s
  rw [targetValue_setCyc, targetValue_stageOf_lxi]
  refine ⟨hpc, stageOf_lxi_mem rp s, stageOf_f _ s, (stageOf_fault _ s).trans hs.1, charged_toNat hs.2, rfl,
    fun hsp => stageOf_lxi_sp hsp s, fun r hr => (readReg_setCyc r _ _).trans (readReg_stageOf_lxi hr s),
    fun htop => ?pcFFFF, fun htop => ?pcFFFE⟩
  case pcFFFF =>
    rw [setCyc_pc, hpc, htop]
    exact ⟨rfl, rfl⟩
  case pcFFFE =>
    rw [setCyc_pc, hpc, htop]
    exact ⟨rfl, rfl⟩

end Sys2Proof.Machine

/-! PROOFS. Noninterference and safety of the step: which opcode can write SP, a byte of memory or a register
(10_state.md R23, R29; 20_memory.md R52). -/

namespace Sys2Proof.Machine

/-- An opcode that decodes to MOV r1,r2 is the word of its two codes (30_encoding.md R86). -/
theorem eq_movWord_of_movRegReg {op : Byte} {dst src : Reg} (h : decodeFields op = .movRegReg dst src) :
    op = movWord (regCode dst) (regCode src) := by
  rw [← opcodeOf_decodeOp op, decodeOp, h]
  cases dst <;> cases src <;> rfl

/-- An opcode that decodes to MOV r,M is the word of its register's code (30_encoding.md R86). -/
theorem eq_movWord_of_movRegMem {op : Byte} {dst : Reg} (h : decodeFields op = .movRegMem dst) :
    op = movWord (regCode dst) memCode := by
  rw [← opcodeOf_decodeOp op, decodeOp, h]
  cases dst <;> rfl

/-- An opcode that decodes to MOV M,r is the word of its register's code (30_encoding.md R86). -/
theorem eq_movWord_of_movMemReg {op : Byte} {src : Reg} (h : decodeFields op = .movMemReg src) :
    op = movWord memCode (regCode src) := by
  rw [← opcodeOf_decodeOp op, decodeOp, h]
  cases src <;> rfl

/-- An opcode that decodes to an LXI is the word of its target's code (30_encoding.md R86). -/
theorem eq_lxiWord_of_lxi {op : Byte} {rp : Rp} (h : decodeFields op = .lxi rp) : op = lxiWord (rpCode rp) := by
  rw [← opcodeOf_decodeOp op, decodeOp, h]
  cases rp <;> rfl

theorem isMovOpcode_movWord (dst : Reg) (sss : BitVec 3) : isMovOpcode (movWord (regCode dst) sss) = true := by
  revert sss
  cases dst <;> decide

theorem isStoreOpcode_movWord (src : Reg) : isStoreOpcode (movWord memCode (regCode src)) = true := by
  cases src <;> rfl

theorem dstField_movWord (ddd sss : BitVec 3) : dstField (movWord ddd sss) = ddd := by
  revert ddd sss; decide

theorem srcField_movWord (ddd sss : BitVec 3) : srcField (movWord ddd sss) = sss := by
  revert ddd sss; decide

theorem refReg_regCode (r : Reg) : refReg (regCode r) = r := by
  cases r <;> rfl

/-- A MOV word with a register's code as DDD is a MOV opcode, with that code in its bits 5 to 3 (30_encoding.md R81). -/
theorem isMov_and_dst_of_eq_movWord {op : Byte} {r : Reg} {sss : BitVec 3} (hop : op = movWord (regCode r) sss) :
    isMovOpcode op = true ∧ op.extractLsb' 3 3 = regCode r := by
  subst hop
  exact ⟨isMovOpcode_movWord r sss, dstField_movWord _ _⟩

/-- Everything a step's next state can be: the error outcome past the opcode byte, or the staged effect of the fetched
opcode with CYC charged (40_dispatch.md R111). -/
theorem step_next {s t : State} (h : step s = .next t) :
    (familyAccepts .any (decodeFields (memRead s.pc s)) = false ∧
      t = latchFault (recordOf .any (memRead s.pc s) { s with pc := s.pc + 1#16 }) { s with pc := s.pc + 1#16 }) ∨
    ∃ c : Count, t = setCyc c (stageOf (decodeFields (memRead s.pc s)) { s with pc := s.pc + 1#16 }) := by
  rw [step_eq_driverStepWith, driverStepWith_eq] at h
  obtain ⟨-, ⟨hrej, h⟩ | ⟨-, -, h⟩⟩ := executeWith_next h
  · exact .inl ⟨hrej, h⟩
  · exact .inr ⟨_, h⟩

/-- A step of an opcode that decodes to a MOV or an LXI leaves its staged effect with CYC charged. -/
theorem step_next_of_decoded {s t : State} {d : Decoded} (hd : decodeFields (memRead s.pc s) = d)
    (hacc : familyAccepts .any d = true) (h : step s = .next t) :
    ∃ c : Count, t = setCyc c (stageOf d { s with pc := s.pc + 1#16 }) := by
  subst hd
  obtain ⟨hrej, -⟩ | hstage := step_next h
  · exact absurd hacc (by simp [hrej])
  · exact hstage

theorem readReg_setPc (r : Reg) (v : Word16) (s : State) : readReg r { s with pc := v } = readReg r s :=
  readReg_ptrSet r .pc v s

/-- SP changes in the staged effect of LXI SP alone (10_state.md R29). -/
theorem eq_lxi_sp_of_stageOf_sp_ne {d : Decoded} {s : State} (h : (stageOf d s).sp ≠ s.sp) : d = .lxi .sp := by
  cases d with
  | lxi rp =>
    by_contra hne
    exact h (stageOf_lxi_sp (fun hsp => hne (congrArg Decoded.lxi hsp)) s)
  | movRegReg dst src => exact absurd (writeReg_sp dst _ s) h
  | movRegMem dst => exact absurd (writeReg_sp dst _ s) h
  | movMemReg src => exact absurd rfl h
  | invalid => exact absurd rfl h

/-- A byte of memory changes in the staged effect of a store alone, at HL (20_memory.md R52). -/
theorem eq_movMemReg_of_memRead_stageOf_ne {d : Decoded} {s : State} {x : Word16}
    (h : memRead x (stageOf d s) ≠ memRead x s) :
    ∃ src, d = .movMemReg src ∧ x = s.h ++ s.l ∧ memRead x (stageOf d s) = readReg src s := by
  cases d with
  | movMemReg src =>
    simp only [stageOf_eq, memRead_memWrite] at h ⊢
    have hx : x = s.h ++ s.l := by
      by_contra hne
      exact h (if_neg hne)
    exact ⟨src, rfl, hx, if_pos hx⟩
  | movRegReg dst src => exact absurd (memRead_writeReg x dst _ s) h
  | movRegMem dst => exact absurd (memRead_writeReg x dst _ s) h
  | lxi rp => exact absurd (memRead_stageOf_lxi x rp s) h
  | invalid => exact absurd rfl h

theorem eq_of_readReg_writeReg_ne {r dst : Reg} {v : Byte} {s : State}
    (h : readReg r (writeReg dst v s) ≠ readReg r s) : dst = r := by
  by_contra hne
  exact h (by rw [readReg_writeReg, if_neg (Ne.symm hne)])

/-- A register changes in the staged effect of a MOV into it or of an LXI into its pair alone (10_state.md R23). -/
theorem destination_of_readReg_stageOf_ne {d : Decoded} {s : State} {r : Reg}
    (h : readReg r (stageOf d s) ≠ readReg r s) :
    (d = .movRegMem r ∨ ∃ src, d = .movRegReg r src) ∨ ∃ rp, d = .lxi rp ∧ r ∈ targetRegs rp := by
  cases d with
  | movRegReg dst src => exact .inl (.inr ⟨src, by rw [eq_of_readReg_writeReg_ne h]⟩)
  | movRegMem dst => exact .inl (.inl (by rw [eq_of_readReg_writeReg_ne h]))
  | movMemReg src => exact absurd (readReg_memWrite r _ _ s) h
  | lxi rp => exact .inr ⟨rp, rfl, by_contra fun hr => h (readReg_stageOf_lxi hr s)⟩
  | invalid => exact absurd rfl h

/-- Acceptance does not see a change of state that leaves FAULT. -/
theorem accept_mapNext {g : State → State} {s : State} (hg : (g s).fault = s.fault)
    (body : Host.Outcome State Fault Refusal) : accept (g s) (mapNext g body) = mapNext g (accept s body) := by
  cases hf : s.fault with
  | none => rw [accept_of_none hf, accept_of_none (hg.trans hf)]
  | some r =>
    have hl : s.fault.isSome = true := by rw [hf]; rfl
    rw [accept_of_latched hl, accept_of_latched (hg ▸ hl)]
    rfl

/-- No instruction but LXI SP has an effect on or from SP (10_state.md R29). -/
theorem stageOf_ptrSet_sp {d : Decoded} (hd : d ≠ .lxi .sp) (v : Word16) (s : State) :
    stageOf d (ptrSet .sp v s) = ptrSet .sp v (stageOf d s) := by
  cases d with
  | movRegReg dst src => cases dst <;> cases src <;> rfl
  | movRegMem dst => cases dst <;> rfl
  | movMemReg src => cases src <;> rfl
  | lxi rp =>
    cases rp with
    | sp => exact absurd rfl hd
    | _ => rfl
  | invalid => rfl

/-- A commit does not see a change of state that leaves CYC. -/
theorem commit_mapNext {g : State → State} {s : State} (hcyc : (g s).cyc = s.cyc)
    (hset : ∀ c, setCyc c (g s) = g (setCyc c s)) (cost : Nat) :
    commit cost (g s) = mapNext g (commit cost s) := by
  rw [commit, commit, hcyc, hset]
  split <;> rfl

/-- A transaction other than LXI SP from a state with another SP has the same outcome with that other SP. -/
theorem executeWith_ptrSet_sp (k : Costs) (sel : Sel) {op : Byte} (hop : decodeFields op ≠ .lxi .sp) (v : Word16)
    (s : State) : executeWith k sel op (ptrSet .sp v s) = mapNext (ptrSet .sp v) (executeWith k sel op s) := by
  rw [executeWith_eq, executeWith_eq, ← accept_mapNext (ptrSet_fault .sp v s), stageOf_ptrSet_sp hop,
    commit_mapNext (ptrSet_cyc .sp v _) fun _ => rfl]
  split <;> rfl

/-- Settles O41: a step changes SP only by the staged effect of LXI SP, and no other effect, test or sum sees SP. -/
theorem onlyLxiSpWritesSp : Obligations.OnlyLxiSpWritesSp := by
  unfold Obligations.OnlyLxiSpWritesSp
  refine ⟨fun s t h hsp => ?writes, fun s v hop => ?reads⟩
  case writes =>
    obtain ⟨-, rfl⟩ | ⟨c, rfl⟩ := step_next h
    · exact absurd rfl hsp
    · exact eq_lxiWord_of_lxi (eq_lxi_sp_of_stageOf_sp_ne hsp)
  case reads =>
    rw [step_eq_driverStepWith, step_eq_driverStepWith]
    exact executeWith_ptrSet_sp costs .any (mt eq_lxiWord_of_lxi hop) v { s with pc := s.pc + 1#16 }

/-- Settles O42: the changed byte is the one a staged store writes, and its opcode is the store's word. -/
theorem memoryChangesOnlyAtHlByAStore : Obligations.MemoryChangesOnlyAtHlByAStore := by
  unfold Obligations.MemoryChangesOnlyAtHlByAStore
  intro s t x h hx
  obtain ⟨-, rfl⟩ | ⟨c, rfl⟩ := step_next h
  · exact absurd rfl hx
  · obtain ⟨src, hd, haddr, hval⟩ := eq_movMemReg_of_memRead_stageOf_ne (s := { s with pc := s.pc + 1#16 }) hx
    have hreg : refReg ((memRead s.pc s).extractLsb' 0 3) = src := by
      rw [eq_movWord_of_movMemReg hd]
      exact (congrArg refReg (srcField_movWord _ _)).trans (refReg_regCode src)
    refine ⟨?_, haddr, ?_⟩
    · rw [eq_movWord_of_movMemReg hd]
      exact isStoreOpcode_movWord src
    · rw [hreg]
      exact hval.trans (readReg_setPc src _ s)

/-- Settles O43: the changed register is the destination of a staged MOV or in the target of a staged LXI, and the
opcode is that instruction's word. -/
theorem registerChangesOnlyAsADestination : Obligations.RegisterChangesOnlyAsADestination := by
  unfold Obligations.RegisterChangesOnlyAsADestination
  intro s t r h hr
  rw [← readReg_setPc r (s.pc + 1#16) s] at hr
  obtain ⟨-, rfl⟩ | ⟨c, rfl⟩ := step_next h
  · exact absurd (readReg_latchFault r _ _) hr
  · rw [readReg_setCyc] at hr
    obtain (hd | ⟨src, hd⟩) | ⟨rp, hd, htarget⟩ := destination_of_readReg_stageOf_ne hr
    · exact .inl (isMov_and_dst_of_eq_movWord (eq_movWord_of_movRegMem hd))
    · exact .inl (isMov_and_dst_of_eq_movWord (eq_movWord_of_movRegReg hd))
    · exact .inr ⟨rp, eq_lxiWord_of_lxi hd, htarget⟩

/-- What a store does in a step: PC past the opcode byte, and the byte at HL (41_mov.md R123). -/
theorem step_next_of_store {s t : State} {src : Reg} (hop : memRead s.pc s = movWord memCode (regCode src))
    (h : step s = .next t) :
    t.pc = s.pc + 1#16 ∧ ∀ x, memRead x t = if x = s.h ++ s.l then readReg src s else memRead x s := by
  have hd : decodeFields (memRead s.pc s) = .movMemReg src := by rw [hop, decodeFields_movMemReg]
  obtain ⟨c, rfl⟩ := step_next_of_decoded hd rfl h
  rw [stageOf_eq]
  refine ⟨rfl, fun x => ?_⟩
  rw [memRead_setCyc, memRead_memWrite, readReg_setPc]
  rfl

/-- What LXI SP loads in a step: the two bytes after the opcode (42_lxi.md R204). -/
theorem step_next_of_lxi_sp {s t : State} (hop : memRead s.pc s = 0x31#8) (h : step s = .next t) :
    t.sp = memRead (s.pc + 2#16) s ++ memRead (s.pc + 1#16) s := by
  have hd : decodeFields (memRead s.pc s) = .lxi .sp := by rw [hop]; rfl
  have two : s.pc + 1#16 + 1#16 = s.pc + 2#16 := by rw [BitVec.add_assoc]; rfl
  obtain ⟨c, rfl⟩ := step_next_of_decoded hd rfl h
  rw [stageOf_eq, ← two]
  rfl

/-- Settles O47: the fetch and the operand reads of the next step are reads of the memory the store left, with PC past
its opcode byte. -/
theorem storeIsSeenByTheNextFetch : Obligations.StoreIsSeenByTheNextFetch := by
  unfold Obligations.StoreIsSeenByTheNextFetch
  refine ⟨fun s t src hop haddr h => ?opcode, fun s t u src hop hlxi haddr h hu => ?operand⟩
  case opcode =>
    obtain ⟨hpc, hread⟩ := step_next_of_store hop h
    have hfetch : memRead t.pc t = readReg src s := by rw [hread, if_pos (hpc.trans haddr.symm)]
    rw [← hfetch]
    rfl
  case operand =>
    obtain ⟨hpc, hread⟩ := step_next_of_store hop h
    have hopcode : memRead t.pc t = 0x31#8 := by
      rw [hread, hpc, haddr, if_neg (by bv_omega), hlxi]
    have hlow : memRead (t.pc + 1#16) t = readReg src s := by
      rw [hread, hpc, haddr, if_pos (by bv_omega)]
    have hhigh : memRead (t.pc + 2#16) t = memRead (s.pc + 3#16) s := by
      have three : s.pc + 1#16 + 2#16 = s.pc + 3#16 := by bv_omega
      rw [hread, hpc, haddr, three, if_neg (by bv_omega)]
    rw [step_next_of_lxi_sp hopcode hu, hhigh, hlow]

end Sys2Proof.Machine

/-! PROOFS. The invariant: canonical memory and a legal fault record, kept by every transaction, host write, step and
run. -/

namespace Sys2Proof.Machine

/-- The record of a rejected opcode is one the block writes (60_exceptions.md R220, R221). -/
theorem recordOf_ok {sel : Sel} {op : Byte} (h : familyAccepts sel (decodeFields op) = false) (s : State) :
    (recordOf sel op s).ok = true := by
  simp [FaultRecord.ok, recordOf, h]

/-- The error outcome writes a legal record and a commit writes memory canonically. -/
theorem executeWith_keeps_inv {k : Costs} {sel : Sel} {op : Byte} {s t : State} (hs : s.Inv)
    (h : executeWith k sel op s = .next t) : t.Inv := by
  obtain ⟨hmem, hrec⟩ := hs
  obtain ⟨-, ⟨hacc, rfl⟩ | ⟨-, -, rfl⟩⟩ := executeWith_next h
  · exact ⟨hmem, recordOf_ok hacc s⟩
  · exact ⟨stageOf_wf _ hmem, (congrArg (Option.all FaultRecord.ok) (stageOf_fault _ s)).trans hrec⟩

/-- A driver step is a transaction after an increment of PC, which is no part of the invariant. -/
theorem driverStepWith_keeps_inv {k : Costs} {s t : State} (hs : s.Inv) (h : driverStepWith k s = .next t) : t.Inv :=
  executeWith_keeps_inv (s := { s with pc := s.pc + 1#16 }) hs h

/-- A host write stores canonically and leaves FAULT (60_exceptions.md R233). -/
theorem portWrite_keeps_inv {s : State} (w : PortWrite) (hs : s.Inv) : (portWrite w s).Inv := by
  obtain ⟨hmem, hrec⟩ := hs
  exact ⟨portWrite_wf w hmem, by rwa [portWrite_fault]⟩

/-- Settles O37: a step is a driver step at the default costs. -/
theorem stepKeepsTheInvariant : Obligations.StepKeepsTheInvariant := by
  unfold Obligations.StepKeepsTheInvariant
  intro s t hs h
  rw [step_eq_driverStepWith] at h
  exact driverStepWith_keeps_inv hs h

/-- Settles O39: a transaction writes memory and FAULT in one of two ways, a host write memory alone. -/
theorem transactionsAndHostWritesKeepTheInvariant : Obligations.TransactionsAndHostWritesKeepTheInvariant := by
  unfold Obligations.TransactionsAndHostWritesKeepTheInvariant
  exact fun s hs => ⟨fun _ _ _ _ => executeWith_keeps_inv hs, fun w => portWrite_keeps_inv w hs⟩

/-- Settles O38: construction lists no byte of memory and leaves no record. -/
theorem resetMeetsTheInvariant : Obligations.ResetMeetsTheInvariant := by
  unfold Obligations.ResetMeetsTheInvariant
  exact ⟨reset_mem_wf, rfl⟩

/-- A driver step leaves F and takes nothing from CYC (10_state.md R31, 40_dispatch.md R113). -/
theorem driverStepWith_f_cyc {k : Costs} {s t : State} (h : driverStepWith k s = .next t) :
    t.f = s.f ∧ s.cyc.toNat ≤ t.cyc.toNat := by
  rw [driverStepWith_eq] at h
  have hf := f_eq_of_writeF_comm (f := executeWith k .any _) (fun v s => runChecked_writeF k .any _ _ v s) h
  exact ⟨hf, executeWith_cyc_le (s := { s with pc := s.pc + 1#16 }) h⟩

/-- Settles O59: the invariant, F and the bound on CYC are kept by every driver step, and so by every run. -/
theorem runKeepsTheInvariantAndF : Obligations.RunKeepsTheInvariantAndF := by
  unfold Obligations.RunKeepsTheInvariantAndF
  intro k n s t hs hend
  have hrun := runBy_induct (drive := driverStepWith k)
    (P := fun u => u.Inv ∧ u.f = s.f ∧ s.cyc.toNat ≤ u.cyc.toNat) (fun u v ⟨hu, hf, hc⟩ h => ?step) n s
    ⟨hs, rfl, le_rfl⟩
  case step =>
    obtain ⟨hf', hc'⟩ := driverStepWith_f_cyc h
    exact ⟨driverStepWith_keeps_inv hu h, hf'.trans hf, hc.trans hc'⟩
  rw [← runWith] at hrun
  obtain h | h | h := hend <;> rw [h] at hrun <;> exact hrun.2

end Sys2Proof.Machine

/-! PROOFS. Refinement (10_state.md R20): seen through the reference record, every operation of the model is the
operation of the reference block, and so are the transaction and the driver step. -/

namespace Sys2Proof.Machine

theorem ref_setPc (v : Word16) (s : State) : State.ref { s with pc := v } = { s.ref with pc := v } := rfl

theorem ref_writeReg (r : Reg) (v : Byte) (s : State) : (writeReg r v s).ref = s.ref.setReg r v := by
  simp [State.ref, RefState.setReg]

theorem ref_memWrite (x : Word16) (v : Byte) (s : State) :
    (memWrite x v s).ref = { s.ref with mem := fun y => if y = x then v else s.ref.mem y } := by
  simp [State.ref, memRead_memWrite]

theorem hlAddr_eq_ref_hl (s : State) : hlAddr s = s.ref.hl := hlAddr_eq s

/-- The operand a code names: M for 110, a register for any other (10_state.md R22). -/
theorem operandOfCode_eq (code : BitVec 3) :
    operandOfCode code = if code = memCode then .m else .reg (refReg code) := by
  revert code; decide

/-- The target a code names (10_state.md R25). -/
theorem rpOfCode_eq (code : BitVec 2) :
    rpOfCode code = if code = 0b00#2 then .bc else if code = 0b01#2 then .de else if code = 0b10#2 then .hl
      else .sp := by
  revert code; decide

/-- The value of a MOV operand is that of its code in the reference state (30_encoding.md R88). -/
theorem readOperand_operandOfCode (code : BitVec 3) (s : State) :
    readOperand (operandOfCode code) s = s.ref.operand code := by
  rw [operandOfCode_eq, RefState.operand]
  by_cases hm : code = memCode
  · rw [if_pos hm, if_pos hm, ← hlAddr_eq_ref_hl]
    rfl
  · rw [if_neg hm, if_neg hm]
    rfl

/-- Every MOV form but M to M stages the write of its source operand to its destination (41_mov.md R121 to R123). -/
theorem stageOf_movForm {dst src : Operand} (h : ¬(dst = .m ∧ src = .m)) (s : State) :
    stageOf (movForm dst src) s = writeOperand dst (readOperand src s) s := by
  match dst, src with
  | .reg _, .reg _ => rfl
  | .reg _, .m => rfl
  | .m, .reg _ => rfl
  | .m, .m => exact absurd ⟨rfl, rfl⟩ h

/-- The effect of a MOV opcode is the reference's effect of its two codes (41_mov.md R121 to R123). -/
theorem ref_stageOf_mov {op : Byte} (hm : isMovOpcode op = true) (s : State) :
    (stageOf (decodeFields op) s).ref = s.ref.mov (dstField op) (srcField op) := by
  rw [decodeFields_eq, if_pos hm, stageOf_movForm (not_both_operands_m hm), readOperand_operandOfCode,
    operandOfCode_eq (dstField op), RefState.mov]
  by_cases hd : dstField op = memCode
  · rw [if_pos hd, if_pos hd, writeOperand, ref_memWrite, hlAddr_eq_ref_hl]
  · rw [if_neg hd, if_neg hd, writeOperand, ref_writeReg]

/-- The effect of an LXI into a register pair: the pair's registers written from the two bytes at PC, and PC moved past
them (42_lxi.md R201 to R203). -/
theorem ref_stageLxiPair (hi lo : Reg) (s : State) :
    (stageLxiPair hi lo s).ref = (RefState.setReg { s.ref with pc := s.ref.pc + 2#16 } lo (s.ref.mem s.ref.pc)).setReg
      hi (s.ref.mem (s.ref.pc + 1#16)) := by
  rw [stageLxiPair_eq, ref_writeReg, ref_writeReg, ref_setPc]
  rfl

/-- The effect of an LXI is the reference's effect of its target code (42_lxi.md R201 to R204). -/
theorem ref_stageOf_lxi (code : BitVec 2) (s : State) : (stageOf (.lxi (rpOfCode code)) s).ref = s.ref.lxi code := by
  rw [rpOfCode_eq, RefState.lxi]
  split
  case isTrue => exact ref_stageLxiPair .b .c s
  case isFalse =>
    split
    case isTrue => exact ref_stageLxiPair .d .e s
    case isFalse =>
      split
      case isTrue => exact ref_stageLxiPair .h .l s
      case isFalse => rw [stageOf_eq]; rfl

/-- A latched block has no step in the reference either (40_dispatch.md R102). -/
theorem refOutcome_accept (s : State) (body : Host.Outcome State Fault Refusal) :
    refOutcome (accept s body) = if s.ref.fault.isSome then none else refOutcome body := by
  by_cases hf : s.fault.isSome = true
  · rw [accept_of_latched hf, if_pos (show s.ref.fault.isSome = true from hf)]
    rfl
  · rw [accept_of_none (Option.not_isSome_iff_eq_none.mp hf), if_neg (show ¬s.ref.fault.isSome = true from hf)]

/-- A commit is the reference's charge: CYC is a number below 2^64 in the one and its exact value in the other
(40_dispatch.md R107). -/
theorem refOutcome_commit (cost : Nat) (staged : State) :
    refOutcome (commit cost staged) = staged.ref.charge cost := by
  have hroom : staged.ref.cyc + cost < 2 ^ 64 ↔ staged.cyc.toNat + cost ≤ 2 ^ 64 - 1 :=
    Nat.lt_iff_le_pred (by decide)
  by_cases hc : staged.cyc.toNat + cost ≤ 2 ^ 64 - 1
  · rw [commit_of_le hc, RefState.charge, if_pos (hroom.mpr hc)]
    simp [refOutcome, State.ref, charged_toNat hc]
  · rw [commit_of_not_le hc, RefState.charge, if_neg (mt hroom.mp hc)]
    rfl

theorem refOutcome_raiseInvalidOpcode (sel : Sel) (op : Byte) (s : State) :
    refOutcome (raiseInvalidOpcode sel op s) = some (s.ref.raise sel op) := rfl

/-- A MOV opcode is rejected by the LXI entry point alone (40_dispatch.md R103). -/
theorem rejected_of_isMovOpcode (sel : Sel) {op : Byte} (hm : isMovOpcode op = true) :
    rejected sel op = (sel == .lxi) := by
  simp [rejected, hm, isLxiOpcode_of_isMovOpcode hm]

/-- The transaction refines the reference EXECUTE, family by family (40_dispatch.md R103, R105). -/
theorem refOutcome_executeWith (k : Costs) (sel : Sel) (op : Byte) (s : State) :
    refOutcome (executeWith k sel op s) = refExecute k sel op s.ref := by
  rw [executeWith_eq, refOutcome_accept, refExecute, familyAccepts_decodeFields, apply_ite refOutcome,
    refOutcome_commit, refOutcome_raiseInvalidOpcode]
  congr 1
  by_cases hm : isMovOpcode op = true
  case pos =>
    rw [if_pos hm, rejected_of_isMovOpcode sel hm, costOf_decodeFields k (.inl hm), ref_stageOf_mov hm]
    cases sel <;> rfl
  case neg =>
    by_cases hl : isLxiOpcode op = true
    case pos =>
      rw [if_neg hm, if_pos hl, rejected_of_isLxiOpcode sel hl, costOf_decodeFields k (.inr hl), decodeFields_eq,
        if_neg hm, if_pos hl, ref_stageOf_lxi]
      cases sel <;> rfl
    case neg =>
      rw [if_neg hm, if_neg hl, rejected_of_neither_family sel (by simpa using hm) (by simpa using hl)]
      rfl

/-- Settles O50: acceptance, the commit, the error outcome and the effect of each family refine one by one, and the
driver step is a transaction after the increment of PC. -/
theorem blockRefinesTheReference : Obligations.BlockRefinesTheReference := by
  unfold Obligations.BlockRefinesTheReference
  have hdriver : ∀ k s, refOutcome (driverStepWith k s) = refDriverStep k s.ref := fun k s => by
    rw [driverStepWith_eq, refOutcome_executeWith, ref_setPc]
    rfl
  refine ⟨refOutcome_executeWith, hdriver, fun s => ?step⟩
  case step => rw [step_eq_driverStepWith, hdriver]

end Sys2Proof.Machine

/-! PROOFS. The driver step's reply (40_dispatch.md R100, R111), and the runs that have neither end of R112 (log
entry 15). -/

namespace Sys2Proof.Machine

/-- A transaction without a next state returns nothing (40_dispatch.md R100). -/
theorem replyWith_of_no_next {k : Costs} {sel : Sel} {op : Byte} {s : State}
    (h : ∀ t, executeWith k sel op s ≠ .next t) : replyWith k sel op s = none := by
  cases hx : executeWith k sel op s with
  | next t => exact absurd hx (h t)
  | fault r => exact replyWith_of_fault hx
  | refused r => rw [replyWith, hx]

/-- Settles O58: a driver step that happens is a commit or the error outcome, and one that does not returns nothing. -/
theorem driverStepCommitsOrRecordsTheError : Obligations.DriverStepCommitsOrRecordsTheError := by
  unfold Obligations.DriverStepCommitsOrRecordsTheError
  intro k s
  refine ⟨fun t h => ?step, replyWith_of_no_next⟩
  obtain ⟨-, ⟨hreply, hf, -⟩ | herr⟩ := driverStepWith_next h
  · exact .inl ⟨hreply, hf⟩
  · exact .inr herr

/-- The one reason for which a state that is not faulted has no driver step is the CYC limit (40_dispatch.md R107). -/
theorem driverStepWith_eq_cycLimit {k : Costs} {s : State} (hf : s.fault = none)
    (h : ∀ t, driverStepWith k s ≠ .next t) : driverStepWith k s = .fault .cycLimit := by
  rw [driverStepWith_eq] at h ⊢
  cases hr : rejected .any (memRead s.pc s) with
  | true => exact absurd (executeWith_of_rejected k (s := { s with pc := s.pc + 1#16 }) hf hr) (h _)
  | false =>
    obtain hc | hc := le_or_gt (s.cyc.toNat + opcodeCost k (memRead s.pc s)) (2 ^ 64 - 1)
    · obtain ⟨t, ht, -⟩ := executeWith_charges_exactly k (s := { s with pc := s.pc + 1#16 }) hf hr hc
      exact absurd ht (h t)
    · exact executeWith_of_cyc_full k (s := { s with pc := s.pc + 1#16 }) hf hr hc

/-- The CYC limit is met by states that are not faulted (40_dispatch.md R102). -/
theorem fault_eq_none_of_cycLimit {k : Costs} {s : State} (h : driverStepWith k s = .fault .cycLimit) :
    s.fault = none := by
  by_contra hf
  rw [driverStepWith_of_latched k (Option.isSome_iff_ne_none.mpr hf)] at h
  cases h

/-- A run does not stop at the CYC limit where it has a step. -/
theorem not_stopped_of_next {k : Costs} {s t u : State} (h : driverStepWith k s = .next u) :
    ¬(RepliedRun k [] s t ∧ driverStepWith k t = .fault .cycLimit) := by
  rintro ⟨rfl, hlim⟩
  simp [h] at hlim

/-- A run that comes to a state without a step, from a start that is not faulted. -/
theorem runWith_eq_noStep_iff_of_none {k : Costs} {n : Nat} {s t : State} (hf : s.fault = none) :
    runWith k n s = .noStep t ↔
      ∃ m, m < n ∧ RepliedRun k (.replicate m .ok) s t ∧ driverStepWith k t = .fault .cycLimit := by
  induction n generalizing s with
  | zero =>
    have hrun : runWith k 0 s = .committed s := runBy_zero _ hf
    simp [hrun]
  | succ n ih =>
    simp only [Nat.exists_lt_succ_left, List.replicate_zero, List.replicate_succ]
    obtain ⟨u, hstep, hreply, hfu, hrun⟩ | ⟨u, op, pc, hstep, hreply, -, hrun⟩ | ⟨hno, hrun⟩ :=
      runWith_succ_cases k n hf
    case inl =>
      simp [hrun, ih hfu, repliedRun_cons_of_next hstep, hreply, not_stopped_of_next hstep]
    case inr.inl =>
      simp [hrun, repliedRun_cons_of_next hstep, hreply, not_stopped_of_next hstep]
    case inr.inr =>
      rw [hrun, RunEnd.noStep.injEq]
      constructor
      · rintro rfl
        exact .inl ⟨rfl, driverStepWith_eq_cycLimit hf hno⟩
      · rintro (⟨h, -⟩ | ⟨m, -, h, -⟩)
        · exact h
        · exact absurd h (not_repliedRun_cons hno _ _ _)

/-- A run comes to a state without a step exactly by committed steps that lead to a state at the CYC limit (log
entry 15). -/
theorem runWith_eq_noStep_iff {k : Costs} {n : Nat} {s t : State} :
    runWith k n s = .noStep t ↔
      ∃ m, m < n ∧ RepliedRun k (.replicate m .ok) s t ∧ driverStepWith k t = .fault .cycLimit := by
  cases hf : s.fault with
  | none => exact runWith_eq_noStep_iff_of_none hf
  | some r =>
    have hl : s.fault.isSome = true := by rw [hf]; rfl
    have hrun : runWith k n s = .faulted s := runBy_of_faulted _ n hl
    rw [hrun]
    refine iff_of_false (by simp) ?_
    rintro ⟨m, -, hrun, hlim⟩
    exact not_repliedRun_of_latched hl ⟨hrun, fault_eq_none_of_cycLimit hlim⟩

/-- A run of the step is a run of the driver at the default costs. -/
theorem run_eq_runWith (n : Nat) (s : State) : run n s = runWith costs n s := by
  rw [run, runWith, funext step_eq_driverStepWith]

/-- A run ends normally where the host's runner comes to a state that is not faulted (Host/Core.lean). -/
theorem run_eq_committed_iff (n : Nat) (s t : State) :
    run n s = .committed t ↔ core.run n s = .next t ∧ t.fault = none := by
  induction n generalizing s with
  | zero =>
    have hcore : core.run 0 s = .next s := rfl
    rw [hcore, run]
    cases hf : s.fault with
    | none =>
      rw [runBy_zero step hf]
      constructor
      · rintro ⟨⟩
        exact ⟨rfl, hf⟩
      · rintro ⟨⟨⟩, -⟩
        rfl
    | some r =>
      rw [runBy_of_faulted step 0 (by rw [hf]; rfl)]
      refine iff_of_false (by simp) ?_
      rintro ⟨⟨⟩, hft⟩
      simp [hft] at hf
  | succ n ih =>
    rw [core_run_succ, run]
    cases hf : s.fault with
    | none =>
      rw [runBy_succ step n hf]
      cases step s with
      | next u => exact ih u
      | fault r => simp
      | refused r => simp
    | some r =>
      have hl : s.fault.isSome = true := by rw [hf]; rfl
      rw [runBy_of_faulted step _ hl, step_eq_driverStepWith, driverStepWith_of_latched costs hl]
      simp

/-- Settles O57: a faulted start has no step, the other runs end by the CYC limit, and the host's runner takes the same
steps. -/
theorem runsOutsideTheTwoEndsAreNamedApart : Obligations.RunsOutsideTheTwoEndsAreNamedApart := by
  unfold Obligations.RunsOutsideTheTwoEndsAreNamedApart
  refine ⟨fun k n s t => ⟨runBy_of_faulted _ n, ?noStep⟩,
    fun n s t => ⟨run_eq_runWith n s, run_eq_committed_iff n s t⟩⟩
  case noStep =>
    simp only [runWith_eq_noStep_iff, repliedRun_replicate_ok_iff]
    constructor
    · rintro ⟨m, hm, ⟨seq, hs, ht, hrun, hok⟩, hlim⟩
      exact ⟨m, seq, hm, hs, ht, hrun, hok, hlim⟩
    · rintro ⟨m, seq, hm, hs, ht, hrun, hok, hlim⟩
      exact ⟨m, hm, ⟨seq, hs, ht, hrun, hok⟩, hlim⟩

end Sys2Proof.Machine

/-! PROOFS. The step and the words it runs (40_dispatch.md R101, R111; 30_encoding.md R87; 95_test_vectors.md): the
decoded instruction, an encoded LXI, a placed word, and the outcomes that refute the false variants. -/

namespace Sys2Proof.Machine

/-- Settles O35: a step is `exec` of the byte at PC, which is the opcode the byte decoder decodes. -/
theorem stepRunsTheDecodedInstruction : Obligations.StepRunsTheDecodedInstruction := by
  unfold Obligations.StepRunsTheDecodedInstruction
  refine fun s => ⟨rfl, fun f rest h => ?_⟩
  obtain ⟨op, ⟨-, lo, hi, hbytes, rfl⟩ | ⟨-, hbytes, rfl⟩⟩ := decodeBytes_ok h
  · rw [← (List.cons.inj hbytes).1]
    rfl
  · rw [← (List.cons.inj hbytes).1]
    rfl

/-- Two entry points that both accept an opcode do the same (40_dispatch.md R101). -/
theorem executeWith_eq_of_accepted (k : Costs) {sel sel' : Sel} {op : Byte} (h : rejected sel op = false)
    (h' : rejected sel' op = false) (s : State) : executeWith k sel op s = executeWith k sel' op s := by
  rw [executeWith_eq, executeWith_eq, familyAccepts_decodeFields, familyAccepts_decodeFields, h, h']
  rfl

/-- Settles O51: `exec` runs the decoded opcode under ANY, and each family is accepted by its own entry point and by
ANY. -/
theorem execIsTheUnifiedDispatcher : Obligations.ExecIsTheUnifiedDispatcher := by
  unfold Obligations.ExecIsTheUnifiedDispatcher
  exact ⟨exec_decodeOp,
    fun k op s hm => executeWith_eq_of_accepted k (rejected_of_isMovOpcode .mov hm) (rejected_of_isMovOpcode .any hm) s,
    fun k op s hl => executeWith_eq_of_accepted k (rejected_of_isLxiOpcode .lxi hl) (rejected_of_isLxiOpcode .any hl)
      s⟩

theorem opcodeOf_lxiInstr (rp : Rp) : opcodeOf (lxiInstr rp) = lxiWord (rpCode rp) := by
  cases rp <;> rfl

/-- Settles O52: the fetched opcode is the LXI's word and the bytes its handler reads are the two halves of the
immediate. -/
theorem lxiStepLoadsItsEncodedImmediate : Obligations.LxiStepLoadsItsEncodedImmediate := by
  unfold Obligations.LxiStepLoadsItsEncodedImmediate
  intro rp imm s hs hbytes
  simp only [encode, List.cons.injEq, and_true, opcodeOf_lxiInstr] at hbytes
  obtain ⟨hop, hlo, hhi⟩ := hbytes
  have two : s.pc + 1#16 + 1#16 = s.pc + 2#16 := by bv_omega
  have three : s.pc + 1#16 + 2#16 = s.pc + 3#16 := by bv_omega
  have hstep : step s = .next (setCyc (s.cyc + 10#64) (stageOf (.lxi rp) { s with pc := s.pc + 1#16 })) := by
    rw [step_eq_driverStepWith, driverStepWith_eq, hop]
    exact executeWith_lxiWord costs rp (by decide) hs
  refine ⟨_, hstep, ?target, ?pc, charged_toNat (c := s.cyc) hs.2, stageOf_lxi_mem rp _, stageOf_f (.lxi rp) _,
    (stageOf_fault (.lxi rp) _).trans hs.1⟩
  case target =>
    rw [targetValue_setCyc, targetValue_stageOf_lxi, two, ← joinBytes_immHi_immLo imm, joinBytes_eq, ← hhi, ← hlo]
    rfl
  case pc => exact (stageOf_pc (.lxi rp) _).trans three

/-- A word of the opcode table decodes to the instruction of its first byte. -/
theorem decodeTableWord_eq (nbits w : Nat) :
    decodeTableWord nbits w = some (decodeOp (wordByte (w % 2 ^ nbits) 0)) := by
  obtain ⟨imm, rest, h⟩ := decodeBytes_three (wordByte (w % 2 ^ nbits) 0) (wordByte (w % 2 ^ nbits) 1)
    (wordByte (w % 2 ^ nbits) 2)
  rw [decodeTableWord, tableWordBytes, h]

/-- Placing a word is three stores, at PC and the two addresses after it (log entry 9). -/
theorem withFetchWord_eq (s : State) (nbits w : Nat) :
    s.withFetchWord nbits w = memWrite (s.pc + 2#16) (wordByte (w % 2 ^ nbits) 2)
      (memWrite (s.pc + 1#16) (wordByte (w % 2 ^ nbits) 1) (memWrite s.pc (wordByte (w % 2 ^ nbits) 0) s)) := by
  have two : s.pc + 1#16 + 1#16 = s.pc + 2#16 := by bv_omega
  rw [← two]
  rfl

/-- The byte the step fetches after a word is placed is the word's first. -/
theorem memRead_pc_withFetchWord (s : State) (nbits w : Nat) :
    memRead s.pc (s.withFetchWord nbits w) = wordByte (w % 2 ^ nbits) 0 := by
  rw [withFetchWord_eq, memRead_memWrite_of_ne (by bv_omega), memRead_memWrite_of_ne (by bv_omega),
    memRead_memWrite_self]

/-- Settles O53: the step decodes the word's first byte, and placing the word is three stores. -/
theorem placedWordIsTheOneRun : Obligations.PlacedWordIsTheOneRun := by
  unfold Obligations.PlacedWordIsTheOneRun
  intro s nbits w
  refine ⟨_, decodeTableWord_eq nbits w, ?step, ?others, fun x h0 h1 h2 => ?frame⟩
  case step =>
    rw [← memRead_pc_withFetchWord s]
    rfl
  case others =>
    simp [withFetchWord_eq]
  case frame =>
    rw [withFetchWord_eq, memRead_memWrite_of_ne h2, memRead_memWrite_of_ne h1, memRead_memWrite_of_ne h0]

theorem MovOpcodeRule.worked_example {op : Byte} {i : Instr} {ddd sss : BitVec 3} {mem : Bool}
    {effect : State → State} {worked : State} (h : MovOpcodeRule op i ddd sss mem effect worked) :
    executeMov op movPreset = .next worked := by
  obtain ⟨-, -, -, -, -, hworked⟩ := h
  exact hworked

/-- Settles O54: the outcomes of F1 to F4 are the worked examples of the opcodes' rules, and those of 0x76 and F5 the
error outcome. -/
theorem falseVariantsAreRefuted : Obligations.FalseVariantsAreRefuted := by
  unfold Obligations.FalseVariantsAreRefuted
  refine ⟨⟨decodeOp_opcodeOf (i := .movMA) rfl, decodeOp_opcodeOf (i := .reservedMovMM) rfl,
      (movMemRegRule .a).worked_example, ?reserved⟩,
    ⟨(movRegMemRule .b).worked_example, (movMemRegRule .b).worked_example, (movRegRegRule .b .c).worked_example⟩,
    ?lxi, fun sel => ?invalid⟩
  case reserved => exact executeWith_of_rejected costs rfl (rejected_of_neither_family .mov (op := 0x76#8) rfl rfl)
  case lxi => exact executeWith_lxiWord costs .bc (sel := .lxi) (s := lxiPreset) (by decide) (by decide)
  case invalid =>
    exact executeWith_of_rejected costs (s := { movPreset with cyc := 99#64 }) rfl
      (rejected_of_neither_family sel (op := 0x00#8) rfl rfl)

end Sys2Proof.Machine
